-- ==== Sys2Proof/Word.lean ====
section
/-! DEFINITION. The word types of the core (R11, R12) and the three axes (R14).

Bit 0 is the least significant bit of every vector (R12). Only what the spec slices, XORs or encodes is a bit
vector here; counts, rates, cycle counts and positions are `Nat` and `Int` (R13: pseudocode arithmetic is exact;
decision D3: a model may use unbounded integers and prove the bounds). -/

namespace Sys2Proof

/-- `u8` (R12). -/
abbrev Byte := BitVec 8

/-- `u16`: the two timer ceilings (R37, R39). -/
abbrev U16 := BitVec 16

/-- `u32`: every multi-byte block field (R100). -/
abbrev U32 := BitVec 32

/-- The 64 bits of an IEEE 754 binary64, the `f64` of the host interface (R108). -/
abbrev F64 := BitVec 64

/-- The 6-bit pin vector of R30: bits 0 to 2 `STEP_X/Y/Z`, bits 3 to 5 `DIR_X/Y/Z`. -/
abbrev Pins := BitVec 6

/-- Three bits, one for each axis: bit 0 is X, bit 1 is Y, bit 2 is Z (R41, R42, R257). -/
abbrev Axes3 := BitVec 3

/-- The three axes (R14). -/
inductive Axis where
  | x
  | y
  | z
deriving DecidableEq, Repr

/-- A register or a field that exists once for each axis (`counter[a]`, `position[a]`, R14). -/
structure PerAxis (α : Type) where
  x : α
  y : α
  z : α
deriving DecidableEq, Repr

/-- `v[a]`. -/
def PerAxis.get {α : Type} (v : PerAxis α) : Axis → α
  | .x => v.x
  | .y => v.y
  | .z => v.z

/-- The three values `f x`, `f y`, `f z`. -/
def PerAxis.ofFn {α : Type} (f : Axis → α) : PerAxis α := ⟨f .x, f .y, f .z⟩

/-- The same value on every axis. -/
def PerAxis.all {α : Type} (a : α) : PerAxis α := ⟨a, a, a⟩

/-- The number of an axis: x is 0, y is 1, z is 2 (R14). -/
def Axis.index : Axis → Nat
  | .x => 0
  | .y => 1
  | .z => 2

end Sys2Proof
end

