-- ==== Sys2Proof/Config.lean ====
section
/-! DEFINITION. The implementation parameters of R8 and R257, as plain data, and the free values of the model.

The spec makes the configuration constants "parameters of the model: the model takes them as arguments and no
operation changes them" (R8) and gives a value for none of them. They are one field of the machine's state that no
step changes (log 2), so that a statement over every state is a statement over every configuration. -/

namespace Sys2Proof

/-- A non-negative rational `num / den` (steps per millimetre, the dimming floor, the homing rate). -/
structure Ratio where
  num : Nat
  den : Nat
deriving DecidableEq, Repr

/-- A rational `num / den` that may be negative (the origin offsets). -/
structure SignedRatio where
  num : Int
  den : Nat
deriving DecidableEq, Repr

/-- The parameters of R8, in the order of its table, with the three homing parameters of R257. -/
structure Config where
  /-- `F_CPU`, the frequency of the one clock every timer counts. -/
  fCpu : Nat
  /-- `ACCELERATION_TICKS_PER_SECOND`. -/
  accelerationTicksPerSecond : Nat
  /-- `MINIMUM_STEPS_PER_MINUTE` (one constant under two names, conflict C9). -/
  minimumStepsPerMinute : Nat
  /-- `CONFIG_PULSE_MICROSECONDS`. -/
  pulseMicroseconds : Nat
  /-- `CONFIG_X_STEPS_PER_MM`, `CONFIG_Y_STEPS_PER_MM`, `CONFIG_Z_STEPS_PER_MM`. -/
  stepsPerMm : PerAxis Ratio
  /-- `CONFIG_X_ORIGIN_OFFSET` and its two fellows: no rule reads them (R8, R283, D33). -/
  originOffset : PerAxis SignedRatio
  /-- `CONFIG_BEAMDYNAMICS_EVERY`. -/
  beamEvery : Nat
  /-- `CONFIG_BEAMDYNAMICS_START`. -/
  beamStart : Ratio
  /-- `CONFIG_HOMINGRATE`: no rule reads it (N16). -/
  homingRate : Ratio
  /-- `HOMING_DIR`, bit `a` the dir bit that moves axis `a` toward its end-stop (R257). -/
  homingDir : Axes3
  /-- `HOMING_LIMIT_BIT[a]`, an index 0 to 5 into the limit byte (R257). -/
  homingLimitBit : PerAxis Nat
  /-- `HOMING_US_PER_PULSE` (R257). -/
  homingUsPerPulse : Nat
  /-- `INVERT_MASK`, layout of R30. -/
  invertMask : Pins
  /-- `ENABLE_LASER_INTERLOCKS`. -/
  enableLaserInterlocks : Bool
  /-- `ENABLE_3AXES`, fixed true by R6. -/
  enable3Axes : Bool
  /-- `STATIC_PWM_FREQ`, fixed false by R6. -/
  staticPwmFreq : Bool
  /-- `DRIVEBOARD_USB`, no effect by R6. -/
  driveboardUsb : Bool
  /-- THE MODEL'S OWN, no parameter of R8 (log 13): which of the two models R113 and U2 name this one is. `true` is the
  "model used for proofs", which refuses a run that fetches an ill-formed motion block (U2, D4); `false` is the one that
  runs such a block, "executed as the rules read" (R362). -/
  strict : Bool
deriving DecidableEq, Repr

/-- The types and constraints of R8 under which "the rules of this spec are total", one conjunct for each row of its
table that asks for something the type of the field does not give. -/
abbrev Config.Valid (c : Config) : Prop :=
  (1 ≤ c.fCpu ∧ c.accelerationTicksPerSecond ≤ c.fCpu ∧ 60 * c.fCpu < 2 ^ 32) ∧
  1 ≤ c.accelerationTicksPerSecond ∧
  1 ≤ c.minimumStepsPerMinute ∧
  ((0 < c.stepsPerMm.x.num ∧ 0 < c.stepsPerMm.x.den) ∧ (0 < c.stepsPerMm.y.num ∧ 0 < c.stepsPerMm.y.den) ∧
    (0 < c.stepsPerMm.z.num ∧ 0 < c.stepsPerMm.z.den)) ∧
  (0 < c.originOffset.x.den ∧ 0 < c.originOffset.y.den ∧ 0 < c.originOffset.z.den) ∧
  (1 ≤ c.beamEvery ∧ c.beamEvery ≤ 65535) ∧
  (0 < c.beamStart.den ∧ c.beamStart.num ≤ c.beamStart.den) ∧
  (0 < c.homingRate.num ∧ 0 < c.homingRate.den) ∧
  ((c.homingLimitBit.x ≤ 5 ∧ c.homingLimitBit.y ≤ 5 ∧ c.homingLimitBit.z ≤ 5) ∧
    1 ≤ c.homingUsPerPulse ∧ c.pulseMicroseconds ≤ c.homingUsPerPulse) ∧
  c.enable3Axes = true ∧ c.staticPwmFreq = false

/-- The "example" column of R8. "It is this spec's choice for the examples only and is not a property of the
hardware": the configuration `State.reset` carries (log 2, DESIGN CHOICE), and that of the tests. Two values are not of
that column: `CONFIG_HOMINGRATE`, which the column gives as "not used", is 1 (DESIGN CHOICE, log 2), and `strict`, which
is the model's own, is true (log 13). -/
def Config.exampleValues : Config where
  fCpu := 16000000
  accelerationTicksPerSecond := 100
  minimumStepsPerMinute := 1200
  pulseMicroseconds := 5
  stepsPerMm := ⟨⟨100, 1⟩, ⟨100, 1⟩, ⟨100, 1⟩⟩
  originOffset := ⟨⟨0, 1⟩, ⟨0, 1⟩, ⟨0, 1⟩⟩
  beamEvery := 3
  beamStart := ⟨1, 4⟩
  homingRate := ⟨1, 1⟩
  homingDir := 0b111#3
  homingLimitBit := ⟨0, 2, 4⟩
  homingUsPerPulse := 100
  invertMask := 0b000000#6
  enableLaserInterlocks := true
  enable3Axes := true
  staticPwmFreq := false
  driveboardUsb := false
  strict := true

/-! ### Free values: constants without a body, so that no proof can lean on what they are -/

/-- FREE VALUE (log 5). The byte `RasterRead` answers on an empty stream, "any `u8` (a free draw of the step)"
(R78, U9); the argument is the number of the draw. -/
opaque Config.freeRasterByte : Nat → Byte

/-- FREE VALUE (log 6). How many bytes `serial_consume_data` drops from the head of the raster stream: "some suffix
of `S`, chosen by the environment" (R81, U15); the argument is the number of the draw. -/
opaque Config.consumedBytes : Nat → Nat

/-- FREE VALUE (log 7). The dimmed intensity of a block with `nominal_rate = 0`, where the formula of R197 divides by
zero and states no result (U6); the arguments are the current rate and the nominal intensity. No meaning comes to it:
`execLine` refuses the block. It stands for the value of a total function where the formula has none. -/
opaque Config.dimAtZeroNominalRate : Nat → Byte → Byte

end Sys2Proof
end

