-- ==== Sys2Proof/Machine/Float64.lean ====
section
/-! DEFINITION. The `f64` of the host interface (R108: IEEE 754 binary64) as exact rationals, and the two position
conversions of R283. Every value is a quotient of two natural numbers with a sign beside it, so that the arithmetic
is exact and the kernel can evaluate it. -/

namespace Sys2Proof.Machine

/-- The sign bit of a binary64. -/
def f64Negative (v : F64) : Bool := v.getLsbD 63

/-- The 11 exponent bits of a binary64. -/
def f64Exponent (v : F64) : Nat := (v.extractLsb' 52 11).toNat

/-- The 52 fraction bits of a binary64. -/
def f64Fraction (v : F64) : Nat := (v.extractLsb' 0 52).toNat

/-- Neither a NaN nor an infinity (R110 reserves both as operands of `set_position`). -/
def f64Finite (v : F64) : Bool := f64Exponent v != 2047

/-- The significand of a finite binary64 as an integer: its 52 fraction bits, with the hidden bit above them unless
the number is subnormal. -/
def f64Significand (v : F64) : Nat :=
  if f64Exponent v = 0 then f64Fraction v else 2 ^ 52 + f64Fraction v

/-- Numerator of the magnitude of a finite binary64, `significand * 2^(e - 1075)` with `e` the exponent field (1 for
a subnormal). -/
def f64Num (v : F64) : Nat := f64Significand v * 2 ^ (max (f64Exponent v) 1 - 1075)

/-- Denominator of the magnitude of a finite binary64. -/
def f64Den (v : F64) : Nat := 2 ^ (1075 - max (f64Exponent v) 1)

/-- `num / den` rounded to the nearest integer, a tie to the even one (`den > 0`). -/
def roundHalfEven (num den : Nat) : Nat :=
  let q := num / den
  let r := num % den
  if 2 * r < den then q
  else if den < 2 * r then q + 1
  else if q % 2 = 0 then q else q + 1

/-- The number of steps of the binary64 grid above `2^-1074` at which the magnitude `num / den` is rounded: 0 for a
subnormal, else the distance of its leading bit above bit 52. -/
def f64Scale (num den : Nat) : Nat := Nat.log2 (num * 2 ^ 1074 / den) - 52

/-- The 63 magnitude bits of the binary64 nearest to `num / den`; infinity above the largest finite one. A tie goes
to the even significand (PRESUMED: the default rounding of IEEE 754, log 15). -/
def f64Magnitude (num den : Nat) : Nat :=
  let e := f64Scale num den
  min (e * 2 ^ 52 + roundHalfEven (num * 2 ^ 1074) (den * 2 ^ e)) (2047 * 2 ^ 52)

/-- The binary64 nearest to the rational `± num / den`. The spec fixes no sign for a result of zero; as in IEEE 754
(PRESUMED, log 15) an exact zero has a clear sign bit, and a negative quotient so small that it rounds to zero keeps its
sign and is `-0`. -/
def f64Nearest (negative : Bool) (num den : Nat) : F64 :=
  if num = 0 then 0 else
    BitVec.ofNat 64 (f64Magnitude num den + if negative then 2 ^ 63 else 0)

/-- `round_half_away` of the magnitude `num / den` (R283): `floor(q + 1/2)`. -/
def roundHalfUp (num den : Nat) : Nat := (2 * num + den) / (2 * den)

/-- `mm_to_steps(v, k)` with `k = kNum / kDen` (R283): the exact value of the `f64` times `k`, rounded half away from
zero. -/
def mmToSteps (v : F64) (kNum kDen : Nat) : Int :=
  let m := roundHalfUp (f64Num v * kNum) (f64Den v * kDen)
  if f64Negative v then -(m : Int) else (m : Int)

/-- `steps_to_mm(p, k)` with `k = kNum / kDen` (R283): the nearest binary64 of the exact `p / k`. -/
def stepsToMm (p : Int) (kNum kDen : Nat) : F64 :=
  f64Nearest (decide (p < 0)) (p.natAbs * kDen) kNum

end Sys2Proof.Machine
end

