-- ==== Sys2Proof/Syntax.lean ====
section
/-! DEFINITION. The instructions: eight block types and fourteen host operations (R2, R100, R107), one constructor
of `Instr` for each row of spec/opcode_table.json. -/

namespace Sys2Proof

/-- The seven stop status codes, "these seven and no others" (R105). -/
inductive StopStatus where
  | ok
  | limitHitX1
  | limitHitX2
  | limitHitY1
  | limitHitY2
  | limitHitZ1
  | limitHitZ2
deriving DecidableEq, Repr

/-- The fields of a motion block, R100 less its `type`. `pixelSteps` is part of every record and ignored for `LINE`
(R104). -/
structure MotionBlock where
  directionBits : Pins
  nominalLaserIntensity : Byte
  stepsX : U32
  stepsY : U32
  stepsZ : U32
  stepEventCount : U32
  initialRate : U32
  nominalRate : U32
  finalRate : U32
  rateDelta : U32
  accelerateUntil : U32
  decelerateAfter : U32
  pixelSteps : U32
deriving DecidableEq, Repr

/-- The two types of motion block (R18). -/
inductive MotionKind where
  | line
  | raster
deriving DecidableEq, Repr

/-- A block record (R100) of one of the eight types. An assist block keeps no field but its type (R104). -/
inductive Block where
  | line (b : MotionBlock)
  | rasterLine (b : MotionBlock)
  | airAssistEnable
  | airAssistDisable
  | aux1Enable
  | aux1Disable
  | aux2Enable
  | aux2Disable
deriving DecidableEq, Repr

/-- The motion block of a kind. -/
def MotionKind.block : MotionKind → MotionBlock → Block
  | .line, b => .line b
  | .raster, b => .rasterLine b

/-- The instructions of the core (R2): the eight block types, then the fourteen host operations, in the order of the
opcode table. -/
inductive Instr where
  | line (b : MotionBlock)
  | rasterLine (b : MotionBlock)
  | airAssistEnable
  | airAssistDisable
  | aux1Enable
  | aux1Disable
  | aux2Enable
  | aux2Disable
  | init
  | startProcessing
  | stopProcessing
  | processing
  | requestStop (kind : StopStatus)
  | stopStatus
  | stopRequested
  | stopResume
  | getPositionX
  | getPositionY
  | getPositionZ
  | setPosition (x y z : F64)
  | homingCycle
  | controlLaserIntensity (duty : Byte)
deriving DecidableEq, Repr

/-- A block as an instruction. -/
def Block.toInstr : Block → Instr
  | .line b => .line b
  | .rasterLine b => .rasterLine b
  | .airAssistEnable => .airAssistEnable
  | .airAssistDisable => .airAssistDisable
  | .aux1Enable => .aux1Enable
  | .aux1Disable => .aux1Disable
  | .aux2Enable => .aux2Enable
  | .aux2Disable => .aux2Disable

/-- The two spaces an instruction is read from; the same code means different things in them (R109). -/
inductive Space where
  | blockQueue
  | hostPort
deriving DecidableEq, Repr

/-- The space an instruction is encoded for (the table's "space"). -/
def Instr.space : Instr → Space
  | .line _ | .rasterLine _ | .airAssistEnable | .airAssistDisable | .aux1Enable | .aux1Disable | .aux2Enable
  | .aux2Disable => .blockQueue
  | .init | .startProcessing | .stopProcessing | .processing | .requestStop _ | .stopStatus | .stopRequested
  | .stopResume | .getPositionX | .getPositionY | .getPositionZ | .setPosition _ _ _ | .homingCycle
  | .controlLaserIntensity _ => .hostPort

end Sys2Proof
end

