-- ==== Sys2Proof/WellFormed.lean ====
section
/-! DEFINITION. Two checks on an instruction: that an encoding of it exists (`Encodable`, the reserved bits of R110)
and that it is well-formed (`WellFormed`, R112). The core checks neither kind of well-formedness itself: "the core
validates no block field" (R362). -/

namespace Sys2Proof

/-- R112 (h), and R110: no step bit stands in `direction_bits`. -/
abbrev MotionBlock.StepBitsClear (b : MotionBlock) : Prop := b.directionBits &&& 0b000111#6 = 0

/-- R112 (a): `step_event_count = max(steps_x, steps_y, steps_z)`. -/
abbrev MotionBlock.CountIsMax (b : MotionBlock) : Prop :=
  b.stepEventCount.toNat = max b.stepsX.toNat (max b.stepsY.toNat b.stepsZ.toNat)

/-- R112 (b): `accelerate_until <= decelerate_after`. -/
abbrev MotionBlock.PhasesOrdered (b : MotionBlock) : Prop := b.accelerateUntil.toNat ≤ b.decelerateAfter.toNat

/-- R112 (c): `0 <= nominal_laser_intensity <= 255`, true of any `u8`. -/
abbrev MotionBlock.IntensityInRange (b : MotionBlock) : Prop := b.nominalLaserIntensity.toNat ≤ 255

/-- R112 (d): `step_event_count >= 1`. -/
abbrev MotionBlock.CountPositive (b : MotionBlock) : Prop := 1 ≤ b.stepEventCount.toNat

/-- R112 (e): `step_event_count <= 2^31 - 1`. -/
abbrev MotionBlock.CountFits (b : MotionBlock) : Prop := b.stepEventCount.toNat ≤ 2 ^ 31 - 1

/-- R112 (f): the initial and the final rate lie between `MINIMUM_STEPS_PER_MINUTE` and the nominal rate. -/
abbrev MotionBlock.RatesOrdered (c : Config) (b : MotionBlock) : Prop :=
  (c.minimumStepsPerMinute ≤ b.initialRate.toNat ∧ b.initialRate.toNat ≤ b.nominalRate.toNat) ∧
    (c.minimumStepsPerMinute ≤ b.finalRate.toNat ∧ b.finalRate.toNat ≤ b.nominalRate.toNat)

/-- R112 (g): `nominal_rate <= 60 * F_CPU`. -/
abbrev MotionBlock.RateReachable (c : Config) (b : MotionBlock) : Prop := b.nominalRate.toNat ≤ 60 * c.fCpu

/-- R112 (i): `pixel_steps >= 1`, asked of a `RASTER_LINE` only. -/
abbrev MotionBlock.PixelStepsPositive (b : MotionBlock) : Prop := 1 ≤ b.pixelSteps.toNat

/-- R112 (a) to (h), the conditions every motion block has to meet. -/
abbrev MotionBlock.WellFormed (c : Config) (b : MotionBlock) : Prop :=
  b.CountIsMax ∧ b.PhasesOrdered ∧ b.IntensityInRange ∧ b.CountPositive ∧ b.CountFits ∧ b.RatesOrdered c ∧
    b.RateReachable c ∧ b.StepBitsClear

/-- R112 for a block of either kind of motion. -/
abbrev MotionKind.BlockWellFormed (k : MotionKind) (c : Config) (b : MotionBlock) : Prop :=
  b.WellFormed c ∧ (k = .raster → b.PixelStepsPositive)

/-- An encoding of the instruction exists: it holds no value R110 reserves. -/
def Instr.encodable : Instr → Bool
  | .line b | .rasterLine b => decide b.StepBitsClear
  | .setPosition x y z => Machine.f64Finite x && Machine.f64Finite y && Machine.f64Finite z
  | .airAssistEnable | .airAssistDisable | .aux1Enable | .aux1Disable | .aux2Enable | .aux2Disable | .init
  | .startProcessing | .stopProcessing | .processing | .requestStop _ | .stopStatus | .stopRequested | .stopResume
  | .getPositionX | .getPositionY | .getPositionZ | .homingCycle | .controlLaserIntensity _ => true

/-- R112 for a motion block, R110 for a host operation; an assist block is well-formed as it stands. -/
def Instr.wellFormed (c : Config) (i : Instr) : Bool :=
  match i with
  | .line b => decide (MotionKind.line.BlockWellFormed c b)
  | .rasterLine b => decide (MotionKind.raster.BlockWellFormed c b)
  | .airAssistEnable | .airAssistDisable | .aux1Enable | .aux1Disable | .aux2Enable | .aux2Disable | .init
  | .startProcessing | .stopProcessing | .processing | .requestStop _ | .stopStatus | .stopRequested | .stopResume
  | .getPositionX | .getPositionY | .getPositionZ | .setPosition _ _ _ | .homingCycle
  | .controlLaserIntensity _ => i.encodable

end Sys2Proof
end

