-- ==== Sys2Proof/Decode.lean ====
section
/-! DEFINITION. The decoder and the encoder of the two formats `BLOCK48` (R101, R102) and `HOSTOP` (R106, R108), every
multi-byte value little-endian (R79). The decoder is total on any list of bytes and rejects a reserved encoding
(R110) by name. -/

namespace Sys2Proof

/-- Why a list of bytes is no instruction. Each rejection is safe: the spec gives these encodings no meaning
("a decoder rejects it, and a model refuses a run that contains one", R110). -/
inductive Reject where
  /-- A block record that is not 48 bytes long (R83: "a partial record is not a block"). -/
  | blockLength
  /-- A block type code 0x08 to 0xFF (R110). -/
  | reservedBlockType
  /-- Bits 7:6 or 2:0 of `direction_bits` of a motion block are not zero (R110). -/
  | reservedDirectionBits
  /-- Byte 3 of a motion block is not zero (R110). -/
  | reservedByte
  /-- A host operation whose bytes are not as many as R108 gives its code. -/
  | hostLength
  /-- A host operation code 0x0E to 0xFF (R110). -/
  | reservedHostCode
  /-- A stop status 7 to 255 as operand of `request_stop` (R110, R111). -/
  | reservedStatus
  /-- Bytes 1 to 7 of `set_position` are not all zero (R110). -/
  | nonzeroPadding
  /-- A NaN or an infinity in `set_position` (R110). -/
  | notFinite
deriving DecidableEq, Repr

/-! ### Byte order (R79) -/

/-- The byte at offset `o`. -/
def byteAt (bs : List Byte) (o : Nat) : Byte := bs.getD o 0

/-- The little-endian `u32` at offset `o`. -/
def u32At (bs : List Byte) (o : Nat) : U32 :=
  byteAt bs (o + 3) ++ byteAt bs (o + 2) ++ byteAt bs (o + 1) ++ byteAt bs o

/-- The little-endian `f64` at offset `o`. -/
def f64At (bs : List Byte) (o : Nat) : F64 := u32At bs (o + 4) ++ u32At bs o

/-- The four bytes of a `u32`, least significant first. -/
def u32Bytes (v : U32) : List Byte :=
  [v.extractLsb' 0 8, v.extractLsb' 8 8, v.extractLsb' 16 8, v.extractLsb' 24 8]

/-- The eight bytes of an `f64`, least significant first. -/
def f64Bytes (v : F64) : List Byte := u32Bytes (v.extractLsb' 0 32) ++ u32Bytes (v.extractLsb' 32 32)

/-- The `n` low bytes of a number, least significant first. -/
def bytesOfNat : Nat → Nat → List Byte
  | 0, _ => []
  | n + 1, w => BitVec.ofNat 8 w :: bytesOfNat n (w / 256)

/-! ### Codes -/

/-- R106. -/
def StopStatus.code : StopStatus → Byte
  | .ok => 0
  | .limitHitX1 => 1
  | .limitHitX2 => 2
  | .limitHitY1 => 3
  | .limitHitY2 => 4
  | .limitHitZ1 => 5
  | .limitHitZ2 => 6

/-- R106 read back; codes 7 to 255 are reserved. -/
def StopStatus.ofCode (c : Byte) : Option StopStatus :=
  match c.toNat with
  | 0 => some .ok
  | 1 => some .limitHitX1
  | 2 => some .limitHitX2
  | 3 => some .limitHitY1
  | 4 => some .limitHitY2
  | 5 => some .limitHitZ1
  | 6 => some .limitHitZ2
  | _ => none

/-! ### BLOCK48 -/

/-- The length of a block record in bytes (R101). -/
def blockLength : Nat := 48

/-- The fields of a 48-byte record at the offsets of R101. -/
def motionFields (r : List Byte) : MotionBlock where
  directionBits := (byteAt r 1).extractLsb' 0 6
  nominalLaserIntensity := byteAt r 2
  stepsX := u32At r 4
  stepsY := u32At r 8
  stepsZ := u32At r 12
  stepEventCount := u32At r 16
  initialRate := u32At r 20
  nominalRate := u32At r 24
  finalRate := u32At r 28
  rateDelta := u32At r 32
  accelerateUntil := u32At r 36
  decelerateAfter := u32At r 40
  pixelSteps := u32At r 44

/-- A motion block of kind `k`, if its reserved bits are zero (R101, R110: bits 7:6 and 2:0 of byte 1, and byte 3). -/
def decodeMotion (k : MotionKind) (r : List Byte) : Except Reject Block :=
  if byteAt r 1 &&& 0b11000111#8 ≠ 0 then .error .reservedDirectionBits
  else if byteAt r 3 ≠ 0 then .error .reservedByte
  else .ok (k.block (motionFields r))

/-- R101, R102: a record of the block queue. In an assist block every byte but byte 0 is ignored (R104). -/
def decodeBlock (r : List Byte) : Except Reject Block :=
  if r.length ≠ blockLength then .error .blockLength
  else match (byteAt r 0).toNat with
    | 0 => decodeMotion .line r
    | 1 => decodeMotion .raster r
    | 2 => .ok .airAssistEnable
    | 3 => .ok .airAssistDisable
    | 4 => .ok .aux1Enable
    | 5 => .ok .aux1Disable
    | 6 => .ok .aux2Enable
    | 7 => .ok .aux2Disable
    | _ => .error .reservedBlockType

/-! ### HOSTOP -/

/-- The length in bytes R108 gives a host operation code; `none` for a reserved code. -/
def hostLength (code : Byte) : Option Nat :=
  match code.toNat with
  | 0x04 | 0x0D => some 2
  | 0x0B => some 32
  | 0x00 | 0x01 | 0x02 | 0x03 | 0x05 | 0x06 | 0x07 | 0x08 | 0x09 | 0x0A | 0x0C => some 1
  | _ => none

/-- `request_stop`, with the status code of R106 in byte 1. -/
def decodeRequestStop (bs : List Byte) : Except Reject Instr :=
  match StopStatus.ofCode (byteAt bs 1) with
  | some kind => .ok (.requestStop kind)
  | none => .error .reservedStatus

/-- `set_position`: bytes 1 to 7 zero, then three finite `f64` (R108, R110). -/
def decodeSetPosition (bs : List Byte) : Except Reject Instr :=
  if (bs.drop 1).take 7 ≠ [0, 0, 0, 0, 0, 0, 0] then .error .nonzeroPadding
  else if Machine.f64Finite (f64At bs 8) && Machine.f64Finite (f64At bs 16) && Machine.f64Finite (f64At bs 24) then
    .ok (.setPosition (f64At bs 8) (f64At bs 16) (f64At bs 24))
  else .error .notFinite

/-- R108: the operation byte 0 selects, once its length is known to be right. -/
def decodeHostCode (bs : List Byte) : Except Reject Instr :=
  match (byteAt bs 0).toNat with
  | 0x00 => .ok .init
  | 0x01 => .ok .startProcessing
  | 0x02 => .ok .stopProcessing
  | 0x03 => .ok .processing
  | 0x04 => decodeRequestStop bs
  | 0x05 => .ok .stopStatus
  | 0x06 => .ok .stopRequested
  | 0x07 => .ok .stopResume
  | 0x08 => .ok .getPositionX
  | 0x09 => .ok .getPositionY
  | 0x0A => .ok .getPositionZ
  | 0x0B => decodeSetPosition bs
  | 0x0C => .ok .homingCycle
  | 0x0D => .ok (.controlLaserIntensity (byteAt bs 1))
  | _ => .error .reservedHostCode

/-- R108: one host operation. "The code alone selects the operation and the length" (R109). -/
def decodeHostOp (bs : List Byte) : Except Reject Instr :=
  match hostLength (byteAt bs 0) with
  | none => .error .reservedHostCode
  | some n => if bs.length = n then decodeHostCode bs else .error .hostLength

/-- R109: a decoder reads byte 0 and looks it up in the table of the space it is decoding. -/
def decode : Space → List Byte → Except Reject Instr
  | .blockQueue, bs => (decodeBlock bs).map Block.toInstr
  | .hostPort, bs => decodeHostOp bs

/-! ### The encoder -/

/-- R101: the record of a motion block with type code `code`. -/
def encodeMotion (code : Byte) (b : MotionBlock) : List Byte :=
  [code, b.directionBits.setWidth 8, b.nominalLaserIntensity, 0] ++ u32Bytes b.stepsX ++ u32Bytes b.stepsY ++
    u32Bytes b.stepsZ ++ u32Bytes b.stepEventCount ++ u32Bytes b.initialRate ++ u32Bytes b.nominalRate ++
    u32Bytes b.finalRate ++ u32Bytes b.rateDelta ++ u32Bytes b.accelerateUntil ++ u32Bytes b.decelerateAfter ++
    u32Bytes b.pixelSteps

/-- R104: the record of an assist block; "an encoder writes zeros". -/
def encodeAssist (code : Byte) : List Byte := code :: List.replicate 47 0

/-- The bytes of an instruction in its own space (R101, R108). -/
def encode : Instr → List Byte
  | .line b => encodeMotion 0x00 b
  | .rasterLine b => encodeMotion 0x01 b
  | .airAssistEnable => encodeAssist 0x02
  | .airAssistDisable => encodeAssist 0x03
  | .aux1Enable => encodeAssist 0x04
  | .aux1Disable => encodeAssist 0x05
  | .aux2Enable => encodeAssist 0x06
  | .aux2Disable => encodeAssist 0x07
  | .init => [0x00]
  | .startProcessing => [0x01]
  | .stopProcessing => [0x02]
  | .processing => [0x03]
  | .requestStop kind => [0x04, kind.code]
  | .stopStatus => [0x05]
  | .stopRequested => [0x06]
  | .stopResume => [0x07]
  | .getPositionX => [0x08]
  | .getPositionY => [0x09]
  | .getPositionZ => [0x0A]
  | .setPosition x y z => [0x0B, 0, 0, 0, 0, 0, 0, 0] ++ f64Bytes x ++ f64Bytes y ++ f64Bytes z
  | .homingCycle => [0x0C]
  | .controlLaserIntensity duty => [0x0D, duty]

/-! ### The opcode table's numbering of an instruction's bits -/

/-- The space of a table word. Byte 0 does not tell a block from a host operation (R109), only the length does: 1, 2
and 32 bytes are the lengths of host operations (R108), every other length is read as a block record (log 4). -/
def tableSpace (nbits : Nat) : Space :=
  if nbits ≤ 16 ∨ nbits = 256 then .hostPort else .blockQueue

/-- The bytes of a table word as the hardware stores them, bit 0 of the word the least significant bit of byte 0; the
bits above the word are zero, up to the instruction's own length (32 bytes, the longest, for a reserved code). -/
def tableBytes (nbits w : Nat) : List Byte :=
  match tableSpace nbits with
  | .blockQueue => bytesOfNat blockLength w
  | .hostPort => bytesOfNat ((hostLength (BitVec.ofNat 8 w)).getD 32) w

/-- The instruction the decoder reads from a table word. -/
def decodeTableWord (nbits w : Nat) : Option Instr :=
  match decode (tableSpace nbits) (tableBytes nbits w) with
  | .ok i => some i
  | .error _ => none

end Sys2Proof
end

