-- ==== Sys2Proof/Machine/Operands.lean ====
section
/-! DEFINITION. The operand forms of the core: the block fields as exact integers (R103: zero-extended), the 6-bit pin
vector (R30) and the eight sense inputs with their limit byte (R47). -/

namespace Sys2Proof.Machine

/-! ### Block fields (R100, R103) -/

/-- `steps[a]`. -/
def steps (b : MotionBlock) : PerAxis Nat := ⟨b.stepsX.toNat, b.stepsY.toNat, b.stepsZ.toNat⟩

/-- `step_event_count`. -/
def eventCount (b : MotionBlock) : Nat := b.stepEventCount.toNat

/-! ### The pin vector (R30) -/

/-- The dir bit of axis `a` in a pin vector, bit `3 + a`: set is the negative direction (R30). -/
def dirNegative (v : Pins) (a : Axis) : Bool := v.getLsbD (3 + a.index)

/-- The step bits of a set of pulsing axes as a pin vector: bit `a` for axis `a` (R30, R171). -/
def stepBits (pulse : PerAxis Bool) : Pins :=
  (if pulse.x then 0b000001#6 else 0) ||| (if pulse.y then 0b000010#6 else 0) ||| (if pulse.z then 0b000100#6 else 0)

/-- Bits 5:3 of a pin vector, what `dir_pin` takes (R41). -/
def dirPart (v : Pins) : Axes3 := v.extractLsb' 3 3

/-- Bits 2:0 of a pin vector, what `step_pin` takes (R42). -/
def stepPart (v : Pins) : Axes3 := v.extractLsb' 0 3

/-! ### Sense inputs (R47) -/

/-- The eight sense inputs; `true` is asserted (switch hit, door open, chiller off). -/
structure Sense where
  x1Limit : Bool
  x2Limit : Bool
  y1Limit : Bool
  y2Limit : Bool
  z1Limit : Bool
  z2Limit : Bool
  doorOpen : Bool
  chillerOff : Bool
deriving DecidableEq, Repr

/-- No input asserted. -/
def Sense.clear : Sense := ⟨false, false, false, false, false, false, false, false⟩

/-- The same door and chiller inputs with no limit input asserted. -/
def Sense.withoutLimits (s : Sense) : Sense := ⟨false, false, false, false, false, false, s.doorOpen, s.chillerOff⟩

/-- `read_limit_bits()`: `X1_LIMIT` at bit 0 up to `Z2_LIMIT` at bit 5, bits 7:6 zero (R47, D6). -/
def readLimitBits (s : Sense) : Byte :=
  (BitVec.ofBool false ++ BitVec.ofBool false ++ BitVec.ofBool s.z2Limit ++ BitVec.ofBool s.z1Limit ++
    BitVec.ofBool s.y2Limit ++ BitVec.ofBool s.y1Limit ++ BitVec.ofBool s.x2Limit ++ BitVec.ofBool s.x1Limit)

/-- The first asserted limit input in the order X1, X2, Y1, Y2, Z1, Z2, as the stop it requests (R220, D28). -/
def firstLimit (s : Sense) : Option StopStatus :=
  if s.x1Limit then some .limitHitX1
  else if s.x2Limit then some .limitHitX2
  else if s.y1Limit then some .limitHitY1
  else if s.y2Limit then some .limitHitY2
  else if s.z1Limit then some .limitHitZ1
  else if s.z2Limit then some .limitHitZ2
  else none

end Sys2Proof.Machine
end

