-- ==== Sys2Proof/Machine/Timer.lean ====
section
/-! DEFINITION. The pure part of the Timer Controller (R130 to R136) and the derived constants of R9. -/

namespace Sys2Proof.Machine

/-! ### Derived constants (R9) -/

/-- `CYCLES_PER_ACCELERATION_TICK`, `CPAT = F_CPU div ACCELERATION_TICKS_PER_SECOND` (R9). -/
def cpat (c : Config) : Nat := c.fCpu / c.accelerationTicksPerSecond

/-- `CPAT_HALF = CPAT div 2` (R9). -/
def cpatHalf (c : Config) : Nat := cpat c / 2

/-- `PULSE_CYCLES = (CONFIG_PULSE_MICROSECONDS * F_CPU) div 1000000` (R9). -/
def pulseCycles (c : Config) : Nat := c.pulseMicroseconds * c.fCpu / 1000000

/-- The wait that ends a homing iteration, `HOMING_US_PER_PULSE - CONFIG_PULSE_MICROSECONDS` microseconds (R259, R261) in
clock cycles. DESIGN CHOICE (log 24): the spec states this wait in microseconds and fixes no rounding for it (R9 does for
`PULSE_CYCLES` alone); it is truncated to whole cycles, apart from `PULSE_CYCLES`. -/
def homingWaitCycles (c : Config) : Nat := (c.homingUsPerPulse - c.pulseMicroseconds) * c.fCpu / 1000000

/-! ### Literal constants (R10) -/

/-- `CEILING_MAX` (R10). -/
def ceilingMax : Nat := 0xFFFF

/-- `DUTY_FULL_ON` (R10, R195). -/
def dutyFullOn : Nat := 242

/-- `HOMING_OVERSHOOT` (R10). -/
def homingOvershoot : Nat := 6

/-! ### Prescaler selection -/

/-- The prescaler of the step timer or of the beam timer (R37, R39). -/
inductive Prescaler where
  | div1
  | div8
  | div64
  | div256
  | div1024
deriving DecidableEq, Repr

/-- The number a prescaler divides the clock by (R10). -/
def Prescaler.value : Prescaler → Nat
  | .div1 => 1
  | .div8 => 8
  | .div64 => 64
  | .div256 => 256
  | .div1024 => 1024

/-- The shift of a tier (R10). -/
def Prescaler.shift : Prescaler → Nat
  | .div1 => 0
  | .div8 => 3
  | .div64 => 6
  | .div256 => 8
  | .div1024 => 10

/-- The tiers of R131 in the order they are tried. -/
def prescalerTiers : List Prescaler := [.div1, .div8, .div64, .div256, .div1024]

/-- The first of the tiers whose ceiling fits in 16 bits, or the slowest setting (R131). -/
def selectFrom : List Prescaler → Nat → Prescaler × U16
  | [], _ => (.div1024, BitVec.ofNat 16 ceilingMax)
  | p :: rest, c => if c >>> p.shift ≤ ceilingMax then (p, BitVec.ofNat 16 (c >>> p.shift)) else selectFrom rest c

/-- `select_prescaler(c)` (R131): the smallest prescaler whose ceiling fits in 16 bits; `(1024, 0xFFFF)` if none
does (timer saturation, R139). -/
def selectPrescaler (c : Nat) : Prescaler × U16 := selectFrom prescalerTiers c

/-- The period a (prescaler, ceiling) pair gives, `ceiling × prescaler` (R133). -/
def period (p : Prescaler) (ceiling : U16) : Nat := p.value * ceiling.toNat

/-- The period `configure(c)` returns (R133). -/
def achievedPeriod (c : Nat) : Nat := period (selectPrescaler c).1 (selectPrescaler c).2

/-- `rate_to_cycles(r) = (60 * F_CPU) div max(r, MINIMUM_STEPS_PER_MINUTE)` (R132). -/
def rateToCycles (c : Config) (r : Nat) : Nat := 60 * c.fCpu / max r c.minimumStepsPerMinute

/-- `sat_sub(a, b)` (R13). -/
def satSub (a b : Nat) : Nat := if b ≤ a then a - b else 0

end Sys2Proof.Machine
end

