-- ==== Sys2Proof/Machine/State.lean ====
section
/-! DEFINITION. The state of the core (R20 to R47) with the two collaborator streams (R70, R77), the timed shadow
registers (R40), the output trace (R49), and what the model adds of its own: the order in which events occur (R15,
R300) and the counter of free draws. -/

namespace Sys2Proof.Machine

/-- A value a host operation returns "on a separate result port" (R108): a `u8` (booleans are 0 or 1) or an `f64`. -/
inductive Result where
  | u8 (v : Byte)
  | f64 (v : F64)
deriving DecidableEq, Repr

/-- One entry of the output trace (R49): (a) a write to an output register with the value written, (b) a strobe of
R45, (c) a timer programming or arming, (d) a value returned by a host operation. -/
inductive Obs where
  | dirPin (v : Axes3)
  | stepPin (v : Axes3)
  | laserPin (v : Bool)
  | laserDuty (v : Byte)
  | airAssist (v : Bool)
  | aux1Assist (v : Bool)
  | aux2Assist (v : Bool)
  | plannerDiscardCurrentBlock
  | plannerResetBlockBuffer
  | serialConsumeData
  | serialStop
  | rasterRead (v : Byte)
  | stepTimer (prescaler : Prescaler) (ceiling : U16)
  | beamTimer (prescaler : Prescaler) (ceiling : U16)
  | armPulse
  | result (r : Result)
deriving DecidableEq, Repr

/-- The events of R300, and the passing of time in the timed refinement (R40, log 9). -/
inductive Event where
  /-- The step timer fires (R215, R216). -/
  | stepTimerFire
  /-- The second part of a motion step event (R226). -/
  | stepExit
  /-- The pulse-shaper one-shot fires (R175). -/
  | pulseResetFire
  /-- The beam one-shot fires (R196). -/
  | beamResetFire
  /-- One iteration of a running homing pass (R259). -/
  | homingIter
  /-- The host issues the operation these bytes encode (R108). -/
  | hostOp (bytes : List Byte)
  /-- The planner appends a block record to the queue (R76). -/
  | plannerPush (record : List Byte)
  /-- The serial receive interrupt appends a byte to the raster stream (R77). -/
  | rasterPush (byte : Byte)
  /-- The environment changes the sense inputs (R47). -/
  | senseChange (sense : Sense)
  /-- The clock advances with no event of the core (timed refinement only, R40, log 9). -/
  | clockAdvance (cycles : Nat)
deriving DecidableEq, Repr

/-- The locals of `homing_cycle` (R257) with the pass number, "an extra state component while `homing_cycle` runs". -/
structure Homing where
  /-- The pass under way is the retract pass (R256). -/
  reverse : Bool
  /-- `active`, the axes still homing. -/
  active : Axes3
  /-- `allowance[a]`, 0 to 6. -/
  allowance : PerAxis Nat
  /-- Timed shadow (R259, R261): the value of `now` at which the waits of the last iteration end. -/
  resumeAt : Nat
deriving DecidableEq, Repr

/-- Why the machine stops with a fault: never. "No case here is treated as `fault`" (93_implementation_defined.md);
"there is no misaligned access, no access fault, no page fault, no illegal instruction trap" (R314). -/
inductive Fault where
deriving DecidableEq, Repr

/-- Why a step gives no next state. -/
inductive Refusal where
  /-- Raised by `exec` for an instruction that has no meaning yet. Safe: nothing can be proved of it. -/
  | notModelled (mnemonic : String)
  /-- Raised by a fetch or by the host port on a reserved encoding (R110, U1: "refuse"). Safe. -/
  | reservedEncoding (why : Reject)
  /-- Raised by a host operation issued while `busy = 1` or while a `homing_cycle` runs: the event is not enabled and
  "an event not enabled cannot occur" (R300). Safe. -/
  | hostOpNotEnabled
  /-- Raised by `homing_cycle()` with `processing_flag = 1` (R264, U8: "refuse"). Safe. -/
  | homingWhileProcessing
  /-- Raised by a step whose next event is not enabled (R300). Safe. -/
  | eventNotEnabled
  /-- Raised by a planner push of a record that is not 48 bytes long (R83). Safe. -/
  | partialRecord
  /-- Raised by the fetch of a motion block that breaks a condition of R112, by a machine that is `strict`: "a model used
  for proofs refuses it" (R113, U2, D4). Safe. -/
  | illFormedBlock
  /-- Raised by a `LINE` with `nominal_rate = 0`: the dimming formula would divide by zero, "and a model refuses it"
  (R197, U6). Safe. -/
  | zeroNominalRate
  /-- Raised by a motion block or an `init()` that programs the step timer with period 0, and by a fire of a timer that
  stands so: "a model refuses the case" (R136, U3, D14). Safe. -/
  | zeroTimerPeriod
  /-- Raised by the `StepExit` of a motion block whose step event would take `step_events_completed` past `2^32 - 1` (U11:
  "refuse"; R23, R352). Safe. -/
  | stepCountOverflow
  /-- Raised by every event but `init()` before the first `init()` (R343, U12: "refuse"). Safe. -/
  | beforeInit
deriving DecidableEq, Repr

/-- The state of the machine. -/
structure State where
  /-- The configuration constants (R8): parameters, which no step changes. -/
  cfg : Config
  -- Motion State (R21 to R28)
  /-- `current_block` (R21); `none` is `NONE`. -/
  currentBlock : Option Block
  /-- `counter[a]`, the Bresenham accumulators (R22). -/
  counter : PerAxis Int
  /-- `step_events_completed` (R23). -/
  stepEventsCompleted : Nat
  /-- `adjusted_rate`, steps per minute (R24). -/
  adjustedRate : Nat
  /-- `cycles_per_step_event` (R25). -/
  cyclesPerStepEvent : Nat
  /-- `acc_counter` (R26). -/
  accCounter : Nat
  /-- `out_bits` (R27). -/
  outBits : Pins
  /-- `pixel_counter` (R28). -/
  pixelCounter : Nat
  -- Absolute Position (R29)
  /-- `position[a]` (R29). -/
  position : PerAxis Int
  -- Supervisor State (R31 to R34)
  /-- `processing_flag`, the interrupt-enable bit of the step timer (R31). -/
  processingFlag : Bool
  /-- `stop_requested` (R32). -/
  stopRequested : Bool
  /-- `stop_status` (R33). -/
  stopStatus : StopStatus
  /-- `busy`, the reentrancy guard (R34). -/
  busy : Bool
  -- Beam State (R35, R36)
  /-- `pwm_counter` (R35). -/
  pwmCounter : Nat
  /-- `laser_duty`, also an 8-bit output port (R36, R44). -/
  laserDuty : Byte
  -- Timer State (R37 to R39)
  /-- `step_prescaler` (R37). -/
  stepPrescaler : Prescaler
  /-- `step_ceiling` (R37). -/
  stepCeiling : U16
  /-- `pulse_armed` (R38). -/
  pulseArmed : Bool
  /-- `beam_armed` (R39). -/
  beamArmed : Bool
  /-- `beam_prescaler` (R39). -/
  beamPrescaler : Prescaler
  /-- `beam_ceiling` (R39). -/
  beamCeiling : U16
  -- Timed shadow state (R40)
  /-- `now` (R40). -/
  now : Nat
  /-- `step_last_fire` (R40). -/
  stepLastFire : Nat
  /-- `pulse_deadline` (R40). -/
  pulseDeadline : Nat
  /-- `beam_deadline` (R40). -/
  beamDeadline : Nat
  -- Output pins (R41 to R46)
  /-- `dir_pin[a]` (R41). -/
  dirPin : Axes3
  /-- `step_pin[a]` (R42). -/
  stepPin : Axes3
  /-- `laser_pin` (R43). -/
  laserPin : Bool
  /-- `air_assist` (R46). -/
  airAssist : Bool
  /-- `aux1_assist` (R46). -/
  aux1Assist : Bool
  /-- `aux2_assist` (R46). -/
  aux2Assist : Bool
  -- Sense inputs (R47)
  /-- The eight sense inputs (R47). -/
  sense : Sense
  -- Collaborators (R70, R77)
  /-- The block queue `Q`, head first, as the records the planner pushed (R70, R83). -/
  queue : List (List Byte)
  /-- The raster stream `S`, head first (R77). -/
  raster : List Byte
  -- Homing (R52 (e), R257)
  /-- The locals of a running `homing_cycle`; `none` when none runs. -/
  homing : Option Homing
  -- Observation (R49, R108)
  /-- The output trace, oldest entry first (R49). -/
  trace : List Obs
  /-- The ghost counters `pulses[a]` (R49). -/
  pulses : PerAxis Nat
  /-- The result port: the value the last returning host operation put there (R108); `none` before the first. -/
  resultPort : Option Result
  -- The model's own
  /-- An `init()` has occurred (R343). -/
  initialised : Bool
  /-- The events that occur next, in their order (R15, R86; log 3). -/
  agenda : List Event
  /-- How many free draws have been made (log 5, log 6). -/
  freeDraws : Nat
deriving DecidableEq, Repr

/-- The state `init()` leaves under the parameters `c` (R54, R340), with empty streams and no event pending. The
registers R54 calls unspecified hold the values log 1 names. -/
def State.initial (c : Config) : State where
  cfg := c
  currentBlock := none
  counter := ⟨0, 0, 0⟩
  stepEventsCompleted := 0
  adjustedRate := 0
  cyclesPerStepEvent := achievedPeriod (rateToCycles c c.minimumStepsPerMinute)
  accCounter := 0
  outBits := c.invertMask
  pixelCounter := 0
  position := ⟨0, 0, 0⟩
  processingFlag := false
  stopRequested := false
  stopStatus := .ok
  busy := false
  pwmCounter := 1
  laserDuty := 0
  stepPrescaler := (selectPrescaler (rateToCycles c c.minimumStepsPerMinute)).1
  stepCeiling := (selectPrescaler (rateToCycles c c.minimumStepsPerMinute)).2
  pulseArmed := false
  beamArmed := false
  beamPrescaler := .div1
  beamCeiling := 0
  now := 0
  stepLastFire := 0
  pulseDeadline := 0
  beamDeadline := 0
  dirPin := dirPart c.invertMask
  stepPin := stepPart c.invertMask
  laserPin := false
  airAssist := false
  aux1Assist := false
  aux2Assist := false
  sense := Sense.clear
  queue := []
  raster := []
  homing := none
  trace := []
  pulses := ⟨0, 0, 0⟩
  resultPort := none
  initialised := true
  agenda := []
  freeDraws := 0

/-- The machine right after reset, that is after `init()` (R2, R54), with the example parameters of R8 (log 1,
log 2). -/
def State.reset : State := State.initial Config.exampleValues

end Sys2Proof.Machine
end

