-- ==== Sys2Proof/Machine/Flags.lean ====
section
/-! DEFINITION. The conditions the rules test: the enabling conditions of the events (R300), the four phases of the
speed profile (R154 to R158) and the conditions of the interlock step (R220). The core has no arithmetic condition
codes: "the comparisons of the speed profile and of the distributor are made and used inside one event and leave no
flag" (R51). -/

namespace Sys2Proof.Machine

/-- The four phases of R154 to R157. -/
inductive Phase where
  | accelerate
  | cruise
  | boundary
  | decelerate
deriving DecidableEq, Repr

/-- The phase of step event `n` (R158): the tests in their order, exhaustive and non-overlapping (R159). -/
def phaseOf (accelerateUntil decelerateAfter n : Nat) : Phase :=
  if n < accelerateUntil then .accelerate
  else if n < decelerateAfter then .cruise
  else if n = decelerateAfter then .boundary
  else .decelerate

/-- The phase of the step event under way in a block. -/
def blockPhase (b : MotionBlock) (s : State) : Phase :=
  phaseOf b.accelerateUntil.toNat b.decelerateAfter.toNat s.stepEventsCompleted

/-- `StepTimerFire` is enabled (R300): `processing_flag = 1` and no `homing_cycle` running. -/
def stepTimerEnabled (s : State) : Bool := s.processingFlag && s.homing.isNone

/-- A host operation is enabled (R300): `busy = 0` and no `homing_cycle` running. -/
def hostReady (s : State) : Bool := !s.busy && s.homing.isNone

/-- The block under execution has a `StepExit` (R215): it is a motion block. -/
def motionCurrent (s : State) : Bool :=
  match s.currentBlock with
  | some (.line _) | some (.rasterLine _) => true
  | _ => false

/-- `StepExit` is enabled: `busy = 1` (R300); it "exists only when `StepEnter` reached the motion dispatch" (R215). -/
def stepExitEnabled (s : State) : Bool := s.busy && motionCurrent s

/-- `step_events_completed`, a `u32` (R23), can count one more step event: it does not pass `2^32 - 1` (U11). -/
abbrev CountFits (s : State) : Prop := s.stepEventsCompleted + 1 < 2 ^ 32

/-- The door or chiller condition of R220 holds and the interlocks are compiled in. -/
def interlockOpen (s : State) : Bool :=
  s.cfg.enableLaserInterlocks && (s.sense.doorOpen || s.sense.chillerOff)

/-- The stop that step 4 requests (R220): none unless the interlocks are compiled in (D29). -/
def limitHit (s : State) : Option StopStatus :=
  if s.cfg.enableLaserInterlocks then firstLimit s.sense else none

/-- A new acceleration decision is due when the sum exceeds `CPAT`; "the comparison is strict" (R151). -/
def tickDue (c : Config) (acc cycles : Nat) : Bool := decide (cpat c < acc + cycles)

/-- A laser pulse is due: `pwm_counter >= EVERY`, tested before the increment (R191). -/
def laserPulseDue (s : State) : Bool := decide (s.cfg.beamEvery ≤ s.pwmCounter)

end Sys2Proof.Machine
end

