-- ==== Sys2Proof/Machine/Ops.lean ====
section
/-! DEFINITION. The named operations every meaning is built from: writes to the output registers with their trace
entries (R48, R49), the primitives of the two streams (R72 to R82), the timers, the stop mechanism, which is the
core's only trap-like transfer (60_exceptions.md), and the way a host operation answers. -/

namespace Sys2Proof.Machine

/-! ### The output trace (R49) -/

/-- Append one entry to the output trace. -/
def emit (o : Obs) (s : State) : State := { s with trace := s.trace ++ [o] }

/-! ### Output registers (R41 to R46) -/

/-- `set_direction_bits` (R48): write `dir_pin`. -/
def setDirPin (v : Axes3) (s : State) : State := emit (.dirPin v) { s with dirPin := v }

/-- `set_step_bits` and `reset_step_bits` (R48): write `step_pin`. -/
def setStepPin (v : Axes3) (s : State) : State := emit (.stepPin v) { s with stepPin := v }

/-- Write `laser_pin` (R43). -/
def setLaserPin (v : Bool) (s : State) : State := emit (.laserPin v) { s with laserPin := v }

/-- `control_laser_intensity(v)` (R190): write `laser_duty` and nothing else. -/
def controlLaserIntensity (v : Byte) (s : State) : State := emit (.laserDuty v) { s with laserDuty := v }

/-- `control_air_assist(v)` (R46). -/
def controlAirAssist (v : Bool) (s : State) : State := emit (.airAssist v) { s with airAssist := v }

/-- `control_aux1_assist(v)` (R46). -/
def controlAux1Assist (v : Bool) (s : State) : State := emit (.aux1Assist v) { s with aux1Assist := v }

/-- `control_aux2_assist(v)` (R46). -/
def controlAux2Assist (v : Bool) (s : State) : State := emit (.aux2Assist v) { s with aux2Assist := v }

/-! ### The block queue (R72 to R76) -/

/-- `BlockPeek()` (R72): the head record, or `none`; the queue is unchanged. -/
def blockPeek (s : State) : Option (List Byte) := s.queue.head?

/-- `planner_discard_current_block()` (R73): pop the head; on an empty queue no change (D42). -/
def plannerDiscard (s : State) : State := emit .plannerDiscardCurrentBlock { s with queue := s.queue.tail }

/-- `planner_reset_block_buffer()` (R74): drop all pending blocks. -/
def plannerReset (s : State) : State := emit .plannerResetBlockBuffer { s with queue := [] }

/-- `PlannerPush(b)` (R76): append a record. -/
def plannerPush (record : List Byte) (s : State) : State := { s with queue := s.queue ++ [record] }

/-! ### The raster stream (R77 to R82) -/

/-- The byte `RasterRead()` returns (R78): the head of the stream, or any byte if it is empty (U9, log 5). -/
def rasterByte (s : State) : Byte :=
  match s.raster with
  | v :: _ => v
  | [] => Config.freeRasterByte s.freeDraws

/-- `RasterRead()` (R78): the head leaves the stream; an empty stream stays empty and a free draw is used up. -/
def rasterRead (s : State) : State :=
  emit (.rasterRead (rasterByte s))
    { s with raster := s.raster.tail, freeDraws := if s.raster.isEmpty then s.freeDraws + 1 else s.freeDraws }

/-- `serial_consume_data()` (R81): the stream becomes a suffix of itself, chosen by the environment (U15, log 6). -/
def serialConsumeData (s : State) : State :=
  emit .serialConsumeData
    { s with raster := s.raster.drop (Config.consumedBytes s.freeDraws), freeDraws := s.freeDraws + 1 }

/-- `RasterPush(byte)` (R77): append a byte. -/
def rasterPush (byte : Byte) (s : State) : State := { s with raster := s.raster ++ [byte] }

/-! ### The step timer (R133, R135) -/

/-- `configure(c)` (R133): program the step timer (`program_step_timer`, R48). What it returns is
`achievedPeriod c`. -/
def configure (c : Nat) (s : State) : State :=
  emit (.stepTimer (selectPrescaler c).1 (selectPrescaler c).2)
    { s with stepPrescaler := (selectPrescaler c).1, stepCeiling := (selectPrescaler c).2 }

/-- `set_step_rate(r)` (R135): `cycles_per_step_event <- configure(rate_to_cycles(r))`. -/
def setStepRate (r : Nat) (s : State) : State :=
  { configure (rateToCycles s.cfg r) s with cyclesPerStepEvent := achievedPeriod (rateToCycles s.cfg r) }

/-- The end of an event that may have programmed the step timer, in the state `t`: "`configure(0)` programs (1, 0), returns
0, and a model refuses to go on" (D14, R136, U3; log 8). Ceiling 0 is what `configure(0)` programs and nothing else. -/
def goOn (t : State) : Host.Outcome State Fault Refusal :=
  if t.stepCeiling = 0 then .refused .zeroTimerPeriod else .next t

/-- The period of the step timer as it is programmed (R137). For a ceiling of 0 it is 0, and the fire that would come
then is refused (R136). -/
def stepPeriod (s : State) : Nat := period s.stepPrescaler s.stepCeiling

/-! ### The pulse-shaper one-shot (R174, R175) -/

/-- `arm_pulse_shaper()` (R174): arm, or restart, the one-shot; it is due `PULSE_CYCLES` later (R370). -/
def armPulseShaper (s : State) : State :=
  emit .armPulse { s with pulseArmed := true, pulseDeadline := s.now + pulseCycles s.cfg }

/-- `drive_pins(w)` (R173): direction pins, then step pins, then the pulse shaper, in this order (R87). -/
def drivePins (w : Pins) (s : State) : State :=
  armPulseShaper (setStepPin (stepPart w) (setDirPin (dirPart w) s))

/-! ### Arming the step interrupt (R275, R276) -/

/-- `start_processing()` (R275). Timed: if the flag was 0, `step_last_fire <- now`. -/
def startProcessing (s : State) : State :=
  { s with processingFlag := true, stepLastFire := if s.processingFlag then s.stepLastFire else s.now }

/-- `stop_processing()` (R276): writes `processing_flag` only (D32). -/
def stopProcessing (s : State) : State := { s with processingFlag := false }

/-! ### The stop mechanism: raised, taken, returned from -/

/-- `request_stop(kind)` (R272), the one instance of `raise` (R14). The whole body is under the guard, so the first
request alone is recorded and strobed. -/
def requestStop (kind : StopStatus) (s : State) : State :=
  if s.stopRequested then s
  else emit .serialStop { s with stopRequested := true, stopStatus := kind }

/-- The stop path of an invocation that finds `stop_requested` set (R219): disarm, flush, abandon the current block
where it stands. `stop_requested` and `stop_status` stay. -/
def takeStop (s : State) : State :=
  { plannerReset (stopProcessing s) with currentBlock := none, busy := false }

/-- `stop_resume()` (R274), the return from a stop: flag and status are cleared and nothing is restored (R308). -/
def stopResume (s : State) : State := { s with stopRequested := false, stopStatus := .ok }

/-! ### Host operations -/

/-- Put a value on the result port (R108, R49 (d)). -/
def returnResult (r : Result) (s : State) : State := emit (.result r) { s with resultPort := some r }

/-- A flag as the host reads it: 0 or 1 (R108). -/
def boolResult (b : Bool) : Result := .u8 (if b then 1 else 0)

/-- A host operation with effect `f` is one atomic event, enabled when `busy = 0` and no `homing_cycle` runs
(R91, R300). -/
def hostOperation (f : State → State) (s : State) : Host.Outcome State Fault Refusal :=
  if hostReady s then .next (f s) else .refused .hostOpNotEnabled

end Sys2Proof.Machine
end

