-- ==== Sys2Proof/Machine/Homing.lean ====
section
/-! DEFINITION. The Homing Controller (R255 to R268): `homing_cycle()` starts the approach pass, and each iteration of
the loop is an event of its own (R265). -/

namespace Sys2Proof.Machine

/-- The direction bits of a pass (R258): `HOMING_DIR`, all three inverted in the retract pass, XORed with the dir part
of the invert mask. -/
def homingDirBits (c : Config) (reverse : Bool) : Axes3 :=
  (if reverse then ~~~c.homingDir else c.homingDir) ^^^ dirPart c.invertMask

/-- The start of a pass (R258): direction pins, then the locals. -/
def startPass (reverse : Bool) (s : State) : State :=
  { setDirPin (homingDirBits s.cfg reverse) s with
    homing := some ⟨reverse, 0b111#3, PerAxis.all homingOvershoot, s.now⟩ }

/-- The limit bits an iteration reads (R259): bits 5:0 of the limit byte, inverted in the retract pass. -/
def homingLimits (reverse : Bool) (s : State) : Pins :=
  let l := (readLimitBits s.sense).extractLsb' 0 6
  if reverse then ~~~l else l

/-- The end-stop of axis `a` is seen asserted by an axis still homing (R259). -/
def endStopSeen (h : Homing) (s : State) (a : Axis) : Bool :=
  h.active.getLsbD a.index && (homingLimits h.reverse s).getLsbD (s.cfg.homingLimitBit.get a)

/-- The allowance of axis `a` after the check of an iteration (R259): test, then decrement (conflict C4). -/
def nextAllowance (h : Homing) (s : State) (a : Axis) : Nat :=
  if endStopSeen h s a && h.allowance.get a != 0 then h.allowance.get a - 1 else h.allowance.get a

/-- Axis `a` is still active after the check of an iteration (R259): masked out when its end-stop is seen with no
allowance left. -/
def stillActive (h : Homing) (s : State) (a : Axis) : Bool :=
  h.active.getLsbD a.index && !(endStopSeen h s a && h.allowance.get a == 0)

/-- The locals after the check of an iteration (R259). -/
def homingCheck (h : Homing) (s : State) : Homing :=
  { h with
    active := stepPart (stepBits (PerAxis.ofFn (stillActive h s)))
    allowance := PerAxis.ofFn (nextAllowance h s) }

/-- The pulse of an iteration (R259): the active axes leave their idle level and return to it. The pulse is the
foreground's own; the Pulse Shaper takes no part (R261). -/
def homingPulse (active : Axes3) (s : State) : State :=
  setStepPin (stepPart s.cfg.invertMask) (setStepPin (active ^^^ stepPart s.cfg.invertMask) s)

/-- The end of a pass (R256): after the approach pass the retract pass begins; after the retract pass the position is
reset to zero (R263) and the operation returns. -/
def endPass (h : Homing) (s : State) : State :=
  if h.reverse then { s with position := ⟨0, 0, 0⟩, homing := none } else startPass true s

/-- `homing_iter` (R259) for the locals `h`. Timed: the next iteration begins when the two waits have passed. -/
def homingIteration (h : Homing) (s : State) : State :=
  let h' := homingCheck h s
  if h'.active = 0 then endPass h s
  else
    homingPulse h'.active
      { s with homing := some { h' with resumeAt := s.now + (pulseCycles s.cfg + homingWaitCycles s.cfg) } }

/-- `homing_cycle()` (R256, code 0x0C): legal only while `processing_flag = 0` (R264). -/
def execHomingCycle (s : State) : Host.Outcome State Fault Refusal :=
  if s.processingFlag && hostReady s then .refused .homingWhileProcessing
  else hostOperation (startPass false) s

end Sys2Proof.Machine
end

