-- ==== Sys2Proof/Machine/Bresenham.lean ====
section
/-! DEFINITION. The Bresenham Step Distributor (R170 to R173) and the Pulse Shaper's event (R175). -/

namespace Sys2Proof.Machine

/-- Axis pulses in this event (R171): `counter[a] + steps[a] > 0`, "the comparison is strict". -/
def axisPulse (steps : Nat) (counter : Int) : Bool := decide (0 < counter + steps)

/-- The accumulator of an axis after the event (R171). -/
def axisCounter (steps count : Nat) (counter : Int) : Int :=
  if axisPulse steps counter then counter + steps - count else counter + steps

/-- The position of an axis after the event (R171): one unit per pulse, dir bit 0 is positive (R30). -/
def axisPosition (pulse negative : Bool) (position : Int) : Int :=
  if pulse then (if negative then position - 1 else position + 1) else position

/-- The axes that pulse in this event (R171). -/
def pulsingAxes (b : MotionBlock) (s : State) : PerAxis Bool :=
  PerAxis.ofFn fun a => axisPulse ((steps b).get a) (s.counter.get a)

/-- The working vector `v` of R170 and R171: `direction_bits` with the step bit of every pulsing axis set. -/
def stepVector (b : MotionBlock) (s : State) : Pins := b.directionBits ||| stepBits (pulsingAxes b s)

/-- The registers of R171 before the pins are driven: accumulators, position, the ghost `pulses[a]` (R49), and
`out_bits`, the whole vector XORed with `INVERT_MASK` (R172). -/
def distribute (b : MotionBlock) (s : State) : State :=
  { s with
    counter := PerAxis.ofFn fun a => axisCounter ((steps b).get a) (eventCount b) (s.counter.get a)
    position := PerAxis.ofFn fun a =>
      axisPosition ((pulsingAxes b s).get a) (dirNegative b.directionBits a) (s.position.get a)
    pulses := PerAxis.ofFn fun a => if (pulsingAxes b s).get a then s.pulses.get a + 1 else s.pulses.get a
    outBits := stepVector b s ^^^ s.cfg.invertMask }

/-- `bresenham_step()` (R171): distribute, then drive the vector in the same event (R27, conflict C6). -/
def bresenhamStep (b : MotionBlock) (s : State) : State :=
  drivePins (stepVector b s ^^^ s.cfg.invertMask) (distribute b s)

/-- `PulseResetFire` (R175): the step pins return to their idle level; the one-shot disables itself. -/
def pulseReset (s : State) : State := { setStepPin (stepPart s.cfg.invertMask) s with pulseArmed := false }

end Sys2Proof.Machine
end

