-- ==== Sys2Proof/Machine/Beam.lean ====
section
/-! DEFINITION. The Beam Modulator (R190 to R206): laser pulses, speed-proportional dimming and raster sampling. -/

namespace Sys2Proof.Machine

/-! ### Laser pulses (R191 to R194) -/

/-- The pulse width in clock cycles (R193): `(EVERY * duty * cycles_per_step_event) div 256`. -/
def laserPulseWidth (every : Nat) (duty : Byte) (cycles : Nat) : Nat := every * duty.toNat * cycles / 256

/-- Program and arm the beam one-shot for a pulse of `w` cycles (R192, R194); it is due one achieved width later
(R371). -/
def armBeamTimer (w : Nat) (s : State) : State :=
  emit (.beamTimer (selectPrescaler w).1 (selectPrescaler w).2)
    { s with
      beamPrescaler := (selectPrescaler w).1
      beamCeiling := (selectPrescaler w).2
      beamArmed := true
      beamDeadline := s.now + achievedPeriod w }

/-- `issue_laser_pulse()` (R192): duty 0 holds the pin off, duty 242 and above holds it high, both without the timer;
otherwise the pin goes high for the width of R193. -/
def issueLaserPulse (s : State) : State :=
  if s.laserDuty = 0 then setLaserPin false s
  else if dutyFullOn ≤ s.laserDuty.toNat then setLaserPin true s
  else armBeamTimer (laserPulseWidth s.cfg.beamEvery s.laserDuty s.cyclesPerStepEvent) (setLaserPin true s)

/-- `beam_step_pulse()` (R191), step 5 of every invocation that reaches it. -/
def beamStepPulse (s : State) : State :=
  if laserPulseDue s then issueLaserPulse { s with pwmCounter := 1 }
  else { s with pwmCounter := s.pwmCounter + 1 }

/-! ### Dimming (R197 to R200) -/

/-- Numerator of `dimm = START + (1 - START) * I / 255` over the denominator `255 * START.den` (R197). -/
def dimmNum (c : Config) (intensity : Byte) : Int :=
  255 * c.beamStart.num + (c.beamStart.den - c.beamStart.num : Int) * intensity.toNat

/-- Denominator of `dimm`. -/
def dimmDen (c : Config) : Int := 255 * c.beamStart.den

/-- `floor(adjusted)` (R197), `adjusted = I * ((1 - dimm) + dimm * spm / R)` over one denominator. -/
def dimFloor (c : Config) (spm : Nat) (intensity : Byte) (nominal : Nat) : Int :=
  intensity.toNat * ((dimmDen c - dimmNum c intensity) * nominal + dimmNum c intensity * spm) / (dimmDen c * nominal)

/-- `dim(spm, I, R)` (R197): exact, rounded down, clamped to `[0, 255]`. For `R = 0` the formula divides by zero and
a model refuses the block (U6): `execLine` does, so that no meaning computes `dim` there, and as a function it has a free
value (log 7). -/
def dim (c : Config) (spm : Nat) (intensity : Byte) (nominal : Nat) : Byte :=
  if nominal = 0 then Config.dimAtZeroNominalRate spm intensity
  else BitVec.ofNat 8 (min 255 (max 0 (dimFloor c spm intensity nominal))).toNat

/-- The intensity a dimming refresh writes (R200): dimmed for a `LINE`, 0 for a `RASTER_LINE`. -/
def refreshedIntensity (k : MotionKind) (b : MotionBlock) (s : State) : Byte :=
  match k with
  | .line => dim s.cfg s.adjustedRate b.nominalLaserIntensity b.nominalRate.toNat
  | .raster => 0

/-- `refresh_dimming()` (R200). -/
def refreshDimming (k : MotionKind) (b : MotionBlock) (s : State) : State :=
  controlLaserIntensity (refreshedIntensity k b s) s

/-! ### Raster sampling (R202 to R204) -/

/-- `raster_map(b, I)` (R204): `((b - 128) * 2 * I) div 255`, and 0 for a byte below 128. -/
def rasterMap (b intensity : Byte) : Byte :=
  if b.toNat < 128 then 0 else BitVec.ofNat 8 ((b.toNat - 128) * 2 * intensity.toNat / 255)

/-- One sample (R203): read a byte and set the intensity it maps to. -/
def takeSample (b : MotionBlock) (s : State) : State :=
  controlLaserIntensity (rasterMap (rasterByte s) b.nominalLaserIntensity) (rasterRead { s with pixelCounter := 0 })

/-- `raster_sample()` (R203): in Phase B count the event, and at every `pixel_steps`-th one take a sample. -/
def rasterSample (b : MotionBlock) (s : State) : State :=
  if blockPhase b s = .cruise then
    if b.pixelSteps.toNat ≤ s.pixelCounter + 1 then takeSample b s
    else { s with pixelCounter := s.pixelCounter + 1 }
  else s

/-! ### Events and the host operation -/

/-- `BeamResetFire` (R196): drop the laser pin; the one-shot disables itself. -/
def beamReset (s : State) : State := { setLaserPin false s with beamArmed := false }

/-- `control_laser_intensity(u8)` as a host operation (R190, code 0x0D). -/
def execControlLaserIntensity (duty : Byte) (s : State) : Host.Outcome State Fault Refusal :=
  hostOperation (controlLaserIntensity duty) s

end Sys2Proof.Machine
end

