-- ==== Sys2Proof/Machine/SpeedProfile.lean ====
section
/-! DEFINITION. The Acceleration Tick Generator (R150 to R153) and the Speed Profile Executor (R154 to R162). -/

namespace Sys2Proof.Machine

/-- The value `tick()` leaves in `acc_counter` (R151). -/
def tickCounter (c : Config) (acc cycles : Nat) : Nat :=
  if tickDue c acc cycles then acc + cycles - cpat c else acc + cycles

/-- `tick()` (R151): advance `acc_counter` by the period of the interval just elapsed. What it returns is
`tickDue s.cfg s.accCounter s.cyclesPerStepEvent`, read before. -/
def tick (s : State) : State := { s with accCounter := tickCounter s.cfg s.accCounter s.cyclesPerStepEvent }

/-- What `tick()` returns (R151). -/
def ticks (s : State) : Bool := tickDue s.cfg s.accCounter s.cyclesPerStepEvent

/-- `phase_A()` (R154). -/
def phaseA (b : MotionBlock) (s : State) : State :=
  if ticks s then { tick s with adjustedRate := min (s.adjustedRate + b.rateDelta.toNat) b.nominalRate.toNat }
  else tick s

/-- `phase_B()` (R155): snap to `nominal_rate`; `tick()` is not called (R153). -/
def phaseB (b : MotionBlock) (s : State) : State := { s with adjustedRate := b.nominalRate.toNat }

/-- `phase_C()` (R156): the midpoint rule again (R152); the rate is not touched. -/
def phaseC (s : State) : State := { s with accCounter := cpatHalf s.cfg }

/-- `phase_D()` (R157). -/
def phaseD (b : MotionBlock) (s : State) : State :=
  if ticks s then { tick s with adjustedRate := max (satSub s.adjustedRate b.rateDelta.toNat) b.finalRate.toNat }
  else tick s

/-- The phase of the step event (R158), `step_events_completed` already incremented. -/
def runPhase (b : MotionBlock) (s : State) : State :=
  match blockPhase b s with
  | .accelerate => phaseA b s
  | .cruise => phaseB b s
  | .boundary => phaseC s
  | .decelerate => phaseD b s

/-- The actions of R158 on a change of `adjusted_rate`: reprogram the step timer, then refresh the dimming. -/
def rateChanged (k : MotionKind) (b : MotionBlock) (s : State) : State :=
  refreshDimming k b (setStepRate s.adjustedRate s)

/-- `speed_profile()` (R158): run the phase; only if it changed the value of `adjusted_rate`, act on the change
(D16). -/
def speedProfile (k : MotionKind) (b : MotionBlock) (s : State) : State :=
  if (runPhase b s).adjustedRate = s.adjustedRate then runPhase b s else rateChanged k b (runPhase b s)

end Sys2Proof.Machine
end

