-- ==== Sys2Proof/Machine/MotionCore.lean ====
section
/-! DEFINITION. The Motion Core (R215 to R242): the parts of the step event and the meanings of the eight block types.

The meaning of a motion block runs the next atomic part of its step event (R215): with `busy = 0` the end of a
`StepEnter`, from the fetch on (R222, R224, R226), with `busy = 1` its `StepExit` (R226). `busy` is written once in
each part, where the part ends: no event falls inside `StepEnter`, so the bit its test-and-set writes at the top
(R216) is seen by nobody before (log 10). -/

namespace Sys2Proof.Machine

/-! ### Step 4: interlocks (R220) -/

/-- The door or chiller cut (R220): `control_laser_intensity(0)`, and the invocation goes on. -/
def interlockCut (s : State) : State := if interlockOpen s then controlLaserIntensity 0 s else s

/-- The limit return (R220): request the stop, clear `busy` (R218), return. -/
def limitReturn (kind : StopStatus) (s : State) : State := { requestStop kind s with busy := false }

/-- The underrun (R223): disarm, clear `busy`, return. -/
def underrun (s : State) : State := { stopProcessing s with busy := false }

/-! ### Step 7: block init (R224) -/

/-- `current_block <- BlockPeek()` (R222), for the block `blk` the head record decodes to. -/
def fetchBlock (blk : Block) (s : State) : State := { s with currentBlock := some blk }

/-- `motion_block_init()` (R224), in the order DBA lists. -/
def motionBlockInit (k : MotionKind) (b : MotionBlock) (s : State) : State :=
  refreshDimming k b
    { setStepRate b.initialRate.toNat { s with adjustedRate := b.initialRate.toNat, accCounter := cpatHalf s.cfg } with
      counter := PerAxis.all (-((eventCount b / 2 : Nat) : Int))
      stepEventsCompleted := 0
      pixelCounter := 0 }

/-- Fetch and initialise a motion block if none is current (R222, R224): a block is initialised exactly once, in the
invocation that fetches it. -/
def enterBlock (k : MotionKind) (b : MotionBlock) (s : State) : State :=
  if s.currentBlock.isNone then motionBlockInit k b (fetchBlock (k.block b) s) else s

/-! ### The motion step event (R226) -/

/-- The motion dispatch in `StepEnter` (R226): "StepEnter ends with busy = 1". -/
def motionEnter (k : MotionKind) (b : MotionBlock) (s : State) : State :=
  { bresenhamStep b (enterBlock k b s) with busy := true }

/-- `complete_block()` (R228). -/
def completeBlock (k : MotionKind) (s : State) : State :=
  match k with
  | .line => plannerDiscard { s with currentBlock := none }
  | .raster => serialConsumeData (plannerDiscard { s with currentBlock := none })

/-- `step_events_completed <- step_events_completed + 1` (R226). -/
def countEvent (s : State) : State := { s with stepEventsCompleted := s.stepEventsCompleted + 1 }

/-- The raster sample of a `StepExit` (R226): `RASTER_LINE` only. -/
def sampleIfRaster (k : MotionKind) (b : MotionBlock) (s : State) : State :=
  match k with
  | .line => s
  | .raster => rasterSample b s

/-- The completion test of R226 and R228, "equality, made after the increment and after the speed profile". -/
def completeIfDone (k : MotionKind) (b : MotionBlock) (s : State) : State :=
  if s.stepEventsCompleted = eventCount b then completeBlock k s else s

/-- `StepExit` (R226): increment, speed profile, raster sample, completion, clear `busy`. -/
def motionExit (k : MotionKind) (b : MotionBlock) (s : State) : State :=
  { completeIfDone k b (sampleIfRaster k b (speedProfile k b (countEvent s))) with busy := false }

/-- The end of an assist block (R230): discard it and clear `busy`. -/
def finishAssist (s : State) : State := { plannerDiscard { s with currentBlock := none } with busy := false }

/-- The next part of a motion step event (R226): the `StepExit` if `busy` is set and the end of the `StepEnter` otherwise.
The `StepExit` of an event that `step_events_completed` cannot count is refused (R352, U11), and the core goes on only
with a step timer that has a period (R136). -/
def motionStep (k : MotionKind) (b : MotionBlock) (s : State) : Host.Outcome State Fault Refusal :=
  if s.busy then
    if CountFits s then goOn (motionExit k b s) else .refused .stepCountOverflow
  else goOn (motionEnter k b s)

/-! ### The eight block types (R231 to R238) -/

/-- `LINE` (R231). With `nominal_rate = 0` its dimming divides by zero, "and a model refuses it" (R197, U6). -/
def execLine (b : MotionBlock) (s : State) : Host.Outcome State Fault Refusal :=
  if b.nominalRate = 0 then .refused .zeroNominalRate
  else motionStep .line b s

/-- `RASTER_LINE` (R232). It is not dimmed (R200), so a `nominal_rate` of 0 divides nothing. -/
def execRasterLine (b : MotionBlock) (s : State) : Host.Outcome State Fault Refusal :=
  motionStep .raster b s

/-- `AIR_ASSIST_ENABLE` (R233). -/
def execAirAssistEnable (s : State) : Host.Outcome State Fault Refusal := .next (finishAssist (controlAirAssist true s))

/-- `AIR_ASSIST_DISABLE` (R234). -/
def execAirAssistDisable (s : State) : Host.Outcome State Fault Refusal := .next (finishAssist (controlAirAssist false s))

/-- `AUX1_ENABLE` (R235). -/
def execAux1Enable (s : State) : Host.Outcome State Fault Refusal := .next (finishAssist (controlAux1Assist true s))

/-- `AUX1_DISABLE` (R236). -/
def execAux1Disable (s : State) : Host.Outcome State Fault Refusal := .next (finishAssist (controlAux1Assist false s))

/-- `AUX2_ENABLE` (R237). -/
def execAux2Enable (s : State) : Host.Outcome State Fault Refusal := .next (finishAssist (controlAux2Assist true s))

/-- `AUX2_DISABLE` (R238). -/
def execAux2Disable (s : State) : Host.Outcome State Fault Refusal := .next (finishAssist (controlAux2Assist false s))

end Sys2Proof.Machine
end

