-- ==== Sys2Proof/Machine/Reset.lean ====
section
/-! DEFINITION. `init()` (R340 to R344), the core's only reset. -/

namespace Sys2Proof.Machine

/-- The registers `init()` writes that are no output register and no timer programming (R340), and the timed shadow
registers: `now` counts "clock cycles since `init()`" (R40). -/
def initRegisters (s : State) : State :=
  { s with
    pulseArmed := false
    beamArmed := false
    position := ⟨0, 0, 0⟩
    processingFlag := false
    stopRequested := false
    stopStatus := .ok
    busy := false
    currentBlock := none
    pwmCounter := 1
    outBits := s.cfg.invertMask
    now := 0
    stepLastFire := 0
    pulseDeadline := 0
    beamDeadline := 0
    initialised := true }

/-- The output registers `init()` writes, in the order of R340. -/
def initOutputs (s : State) : State :=
  controlAux2Assist false (controlAux1Assist false (controlAirAssist false
    (setStepPin (stepPart s.cfg.invertMask) (setDirPin (dirPart s.cfg.invertMask)
      (setLaserPin false (controlLaserIntensity 0 s))))))

/-- `init()` (R340). It strobes nothing and leaves the queue and the raster stream as they are (R341); the registers
it does not write are "unspecified" (R54) and keep their values (log 1). -/
def initialise (s : State) : State := initOutputs (initRegisters (setStepRate s.cfg.minimumStepsPerMinute s))

/-- `init()` as a host operation (R340, R342, code 0x00). A `MINIMUM_STEPS_PER_MINUTE` above `60 * F_CPU` would program
the period 0 (R136). -/
def execInit (s : State) : Host.Outcome State Fault Refusal :=
  if hostReady s then goOn (initialise s) else .refused .hostOpNotEnabled

end Sys2Proof.Machine
end

