-- ==== Sys2Proof/Machine/Supervisor.lean ====
section
/-! DEFINITION. The meanings of the host operations of 46_supervisor_host_ops.md (R270 to R287). Each is one atomic
event, enabled when `busy = 0` and no `homing_cycle` runs (R91, R300). -/

namespace Sys2Proof.Machine

/-! ### Arming (R275 to R277) -/

/-- `start_processing()` (R275, code 0x01). -/
def execStartProcessing (s : State) : Host.Outcome State Fault Refusal := hostOperation startProcessing s

/-- `stop_processing()` (R276, code 0x02). -/
def execStopProcessing (s : State) : Host.Outcome State Fault Refusal := hostOperation stopProcessing s

/-- `processing() → bool` (R277, code 0x03). -/
def execProcessing (s : State) : Host.Outcome State Fault Refusal :=
  hostOperation (returnResult (boolResult s.processingFlag)) s

/-! ### Stop operations (R272 to R274, R278) -/

/-- `request_stop(kind)` (R272, code 0x04). -/
def execRequestStop (kind : StopStatus) (s : State) : Host.Outcome State Fault Refusal :=
  hostOperation (requestStop kind) s

/-- `stop_status() → u8` (R273, code 0x05): the code of R106. -/
def execStopStatus (s : State) : Host.Outcome State Fault Refusal :=
  hostOperation (returnResult (.u8 s.stopStatus.code)) s

/-- `stop_requested() → bool` (R278, code 0x06). -/
def execStopRequested (s : State) : Host.Outcome State Fault Refusal :=
  hostOperation (returnResult (boolResult s.stopRequested)) s

/-- `stop_resume()` (R274, code 0x07). -/
def execStopResume (s : State) : Host.Outcome State Fault Refusal := hostOperation stopResume s

/-! ### Position (R279 to R283) -/

/-- The position of axis `a` in millimetres as the nearest `f64` (R283). -/
def positionMm (s : State) (a : Axis) : F64 :=
  stepsToMm (s.position.get a) (s.cfg.stepsPerMm.get a).num (s.cfg.stepsPerMm.get a).den

/-- The step count of `v` millimetres on axis `a` (R283). -/
def positionSteps (c : Config) (a : Axis) (v : F64) : Int :=
  mmToSteps v (c.stepsPerMm.get a).num (c.stepsPerMm.get a).den

/-- `get_position_x() → f64` (R279, code 0x08). -/
def execGetPositionX (s : State) : Host.Outcome State Fault Refusal :=
  hostOperation (returnResult (.f64 (positionMm s .x))) s

/-- `get_position_y() → f64` (R280, code 0x09). -/
def execGetPositionY (s : State) : Host.Outcome State Fault Refusal :=
  hostOperation (returnResult (.f64 (positionMm s .y))) s

/-- `get_position_z() → f64` (R281, code 0x0A). -/
def execGetPositionZ (s : State) : Host.Outcome State Fault Refusal :=
  hostOperation (returnResult (.f64 (positionMm s .z))) s

/-- The writes of `set_position` (R282): the position and nothing else. -/
def setPosition (x y z : F64) (s : State) : State :=
  { s with position := ⟨positionSteps s.cfg .x x, positionSteps s.cfg .y y, positionSteps s.cfg .z z⟩ }

/-- `set_position(x, y, z)` (R282, code 0x0B). A NaN or an infinity is a reserved encoding (R110); the decoder never
gives one. -/
def execSetPosition (x y z : F64) (s : State) : Host.Outcome State Fault Refusal :=
  if f64Finite x && f64Finite y && f64Finite z then hostOperation (setPosition x y z) s
  else .refused (.reservedEncoding .notFinite)

end Sys2Proof.Machine
end

