-- ==== Sys2Proof/Machine/Dispatch.lean ====
section
/-! DEFINITION. The meaning of every instruction. -/

namespace Sys2Proof.Machine

def exec (i : Instr) (s : State) : Host.Outcome State Fault Refusal :=
  match i with
  -- blocks (44_motion_core_blocks.md)
  | .line b => Sys2Proof.Machine.execLine b s
  | .rasterLine b => Sys2Proof.Machine.execRasterLine b s
  | .airAssistEnable => Sys2Proof.Machine.execAirAssistEnable s
  | .airAssistDisable => Sys2Proof.Machine.execAirAssistDisable s
  | .aux1Enable => Sys2Proof.Machine.execAux1Enable s
  | .aux1Disable => Sys2Proof.Machine.execAux1Disable s
  | .aux2Enable => Sys2Proof.Machine.execAux2Enable s
  | .aux2Disable => Sys2Proof.Machine.execAux2Disable s
  -- host operations (70, 46, 45, 43)
  | .init => Sys2Proof.Machine.execInit s
  | .startProcessing => Sys2Proof.Machine.execStartProcessing s
  | .stopProcessing => Sys2Proof.Machine.execStopProcessing s
  | .processing => Sys2Proof.Machine.execProcessing s
  | .requestStop kind => Sys2Proof.Machine.execRequestStop kind s
  | .stopStatus => Sys2Proof.Machine.execStopStatus s
  | .stopRequested => Sys2Proof.Machine.execStopRequested s
  | .stopResume => Sys2Proof.Machine.execStopResume s
  | .getPositionX => Sys2Proof.Machine.execGetPositionX s
  | .getPositionY => Sys2Proof.Machine.execGetPositionY s
  | .getPositionZ => Sys2Proof.Machine.execGetPositionZ s
  | .setPosition x y z => Sys2Proof.Machine.execSetPosition x y z s
  | .homingCycle => Sys2Proof.Machine.execHomingCycle s
  | .controlLaserIntensity duty => Sys2Proof.Machine.execControlLaserIntensity duty s

end Sys2Proof.Machine
end

