-- ==== Sys2Proof/Machine/Events.lean ====
section
/-! DEFINITION. The events of R300 and what each does, the fetch of a block (R222) among them; when a timer event is
due (R138, R369 to R371); and which event the core takes by itself. -/

namespace Sys2Proof.Machine

/-! ### Time (R40) -/

/-- The value of `now` at which a timer event is due: one period after the last fire of the step timer (R138), the
deadline of a one-shot (R370, R371), the end of the waits of a homing iteration (R259). Any other event occurs at
`now`. -/
def dueTime (e : Event) (s : State) : Nat :=
  match e with
  | .stepTimerFire => s.stepLastFire + stepPeriod s
  | .pulseResetFire => s.pulseDeadline
  | .beamResetFire => s.beamDeadline
  | .homingIter => match s.homing with
    | some h => h.resumeAt
    | none => s.now
  | .stepExit | .hostOp _ | .plannerPush _ | .rasterPush _ | .senseChange _ | .clockAdvance _ => s.now

/-- An event occurs at its due time, or right away if that has passed (R313): `now` never runs backward. -/
def advanceTo (e : Event) (s : State) : State := { s with now := max s.now (dueTime e s) }

/-! ### The step timer's invocation (R216, R229) -/

/-- Why a machine that is `strict` refuses to fetch a block: an ill-formed motion block is outside the spec (R113, U2, D4).
`none` if it runs the block, as a machine that is not `strict` runs every block (R113, R362; log 13), "except where a
rule says otherwise" (R113): the meaning of the block refuses those (R136, R197). -/
def blockRefusal (c : Config) (blk : Block) : Option Refusal :=
  if c.strict && !blk.toInstr.wellFormed c then some .illFormedBlock else none

/-- Run a block the queue answered (R222), unless it is refused. Its meaning installs and initialises it. -/
def runFetched (blk : Block) (s : State) : Host.Outcome State Fault Refusal :=
  match blockRefusal s.cfg blk with
  | none => exec blk.toInstr s
  | some why => .refused why

/-- Steps 6 to 8 (R222, R223, R225): the block under execution, or the head of the queue, or underrun. -/
def dispatchBlock (s : State) : Host.Outcome State Fault Refusal :=
  match s.currentBlock with
  | some blk => exec blk.toInstr s
  | none =>
    match blockPeek s with
    | none => .next (underrun s)
    | some record =>
      match decodeBlock record with
      | .ok blk => runFetched blk s
      | .error why => .refused (.reservedEncoding why)

/-- `StepEnter` (R229): the stop path, the interlocks and limits, the laser pulse, then fetch and dispatch. -/
def stepEnter (s : State) : Host.Outcome State Fault Refusal :=
  if s.stopRequested then .next (takeStop s)
  else
    match limitHit s with
    | some kind => .next (limitReturn kind (interlockCut s))
    | none => dispatchBlock (beamStepPulse (interlockCut s))

/-- The fire as the timed shadow sees it (R40): `step_last_fire` is the time of this fire. -/
def stampFire (s : State) : State :=
  { s with now := max s.now (dueTime .stepTimerFire s), stepLastFire := max s.now (dueTime .stepTimerFire s) }

/-- `StepTimerFire` (R216): dropped if `busy`, else an invocation. With ceiling 0 "DBA does not say what a timer … does"
and the model refuses to go on (R136, U3, D14; log 8). -/
def stepTimerFire (s : State) : Host.Outcome State Fault Refusal :=
  if s.stepCeiling = 0 then .refused .zeroTimerPeriod
  else if s.busy then .next (stampFire s)
  else stepEnter (stampFire s)

/-- `StepExit` (R226): the second part of the motion block under execution. -/
def stepExit (s : State) : Host.Outcome State Fault Refusal :=
  match s.currentBlock with
  | some blk => exec blk.toInstr s
  | none => .refused .eventNotEnabled

/-- `HomingIter` (R259). -/
def homingIter (s : State) : Host.Outcome State Fault Refusal :=
  match s.homing with
  | some h => .next (homingIteration h (advanceTo .homingIter s))
  | none => .refused .eventNotEnabled

/-- One host operation, from the bytes on the host port (R108, R109). -/
def hostOp (bytes : List Byte) (s : State) : Host.Outcome State Fault Refusal :=
  match decode .hostPort bytes with
  | .ok i => exec i s
  | .error why => .refused (.reservedEncoding why)

/-- A planner push (R76, R83). -/
def pushRecord (record : List Byte) (s : State) : Host.Outcome State Fault Refusal :=
  if record.length = blockLength then .next (plannerPush record s) else .refused .partialRecord

/-- An event with an enabling condition: "an event not enabled cannot occur" (R300). -/
def whenEnabled (enabled : Bool) (o : Host.Outcome State Fault Refusal) : Host.Outcome State Fault Refusal :=
  if enabled then o else .refused .eventNotEnabled

/-- What an event does, if its enabling condition of R300 holds. -/
def perform (e : Event) (s : State) : Host.Outcome State Fault Refusal :=
  match e with
  | .stepTimerFire => whenEnabled (stepTimerEnabled s) (stepTimerFire s)
  | .stepExit => whenEnabled (stepExitEnabled s) (stepExit s)
  | .pulseResetFire => whenEnabled s.pulseArmed (.next (pulseReset (advanceTo .pulseResetFire s)))
  | .beamResetFire => whenEnabled s.beamArmed (.next (beamReset (advanceTo .beamResetFire s)))
  | .homingIter => homingIter s
  | .hostOp bytes => hostOp bytes s
  | .plannerPush record => pushRecord record s
  | .rasterPush byte => .next (rasterPush byte s)
  | .senseChange sense => .next { s with sense := sense }
  | .clockAdvance cycles => .next { s with now := s.now + cycles }

/-! ### The core's own next event -/

/-- The earlier of two candidate events; the first one on a tie (log 9). -/
def earlier (s : State) (e : Event) (next : Option Event) : Option Event :=
  match next with
  | none => some e
  | some f => if dueTime e s ≤ dueTime f s then some e else some f

/-- The earliest due of the candidates that are enabled. -/
def earliest (s : State) : List (Bool × Event) → Option Event
  | [] => none
  | (enabled, e) :: rest => if enabled then earlier s e (earliest s rest) else earliest s rest

/-- The timer events and the homing loop, with what enables each (R300). -/
def timerCandidates (s : State) : List (Bool × Event) :=
  [(s.pulseArmed, .pulseResetFire), (s.beamArmed, .beamResetFire), (s.homing.isSome, .homingIter),
    (stepTimerEnabled s, .stepTimerFire)]

/-- The event the core takes when nothing else is ordered: the rest of a step event under way (its duration is taken
as 0, R373), else the earliest due timer event (R313); `none` if it is idle with nothing pending (R320). -/
def ownNextEvent (s : State) : Option Event :=
  if stepExitEnabled s then some .stepExit else earliest s (timerCandidates s)

/-- The core takes its own next event; an idle core waits (R320). -/
def runOwnEvent (s : State) : Host.Outcome State Fault Refusal :=
  match ownNextEvent s with
  | some e => perform e s
  | none => .next s

/-- A host operation has to wait (R300, R265): a step event is under way, or a `homing_cycle` "blocks the entire
foreground". -/
def mustWait (e : Event) (s : State) : Bool :=
  match e with
  | .hostOp _ => !hostReady s
  | _ => false

/-- The next event of the run: the first of the agenda, unless it has to wait; with nothing ordered, the core's
own. -/
def nextEvent (s : State) : Host.Outcome State Fault Refusal :=
  match s.agenda with
  | [] => runOwnEvent s
  | e :: rest => if mustWait e s then runOwnEvent s else perform e { s with agenda := rest }

/-- Before the first `init()` "the only event this spec defines is `init()`" (R343). -/
def beforeInit (s : State) : Host.Outcome State Fault Refusal :=
  match s.agenda with
  | .hostOp bytes :: rest =>
    match decode .hostPort bytes with
    | .ok .init => exec .init { s with agenda := rest, busy := false, homing := none }
    | _ => .refused .beforeInit
  | _ => .refused .beforeInit

/-! ### Placing an instruction for the next step -/

/-- Place a block record: it is the head of the queue, none is current, the step timer is armed with no stop pending
and no limit input asserted, and its fire is the next event. The machine is one that runs ill-formed blocks, since the
operand bytes a table word leaves out are zeros and no motion block of zeros is well-formed (log 4, log 13), and its step
timer is not programmed with the ceiling 0 with which no step goes on (log 8). -/
def placeBlock (record : List Byte) (s : State) : State :=
  { s with
    cfg := { s.cfg with strict := false }
    queue := record :: s.queue
    currentBlock := none
    processingFlag := true
    stepCeiling := if s.stepCeiling = 0 then 1 else s.stepCeiling
    stopRequested := false
    busy := false
    homing := none
    sense := s.sense.withoutLimits
    initialised := true
    agenda := .stepTimerFire :: s.agenda }

/-- Place a host operation: the core can take one, and it is the next event. -/
def placeHostOp (bytes : List Byte) (s : State) : State :=
  { s with busy := false, homing := none, initialised := true, agenda := .hostOp bytes :: s.agenda }

/-- Place the instruction of a table word where the next step fetches it. -/
def placeTableWord (nbits w : Nat) (s : State) : State :=
  match tableSpace nbits with
  | .blockQueue => placeBlock (tableBytes nbits w) s
  | .hostPort => placeHostOp (tableBytes nbits w) s

end Sys2Proof.Machine
end

