-- ==== Sys2Proof/Machine/Step.lean ====
section
/-! DEFINITION. One step of the machine is one event (R15, R86). -/

namespace Sys2Proof.Machine

/-- One step: the next event of the run occurs, whole (R15). -/
def step (s : State) : Host.Outcome State Fault Refusal :=
  if s.initialised then nextEvent s else beforeInit s

/-- `s` with the instruction of a table word placed so that the next step runs it (log 4). -/
def State.withFetchWord (s : State) (nbits w : Nat) : State := placeTableWord nbits w s

end Sys2Proof.Machine
end

