-- ==== Sys2Proof/Safety.lean ====
section
/-! DEFINITION. What counts as a good state and a good run, in the terms the statements use: the invariants the spec
states (R21, R23, R24, R25, R28, R34, R35, R53, R75, R83), the ranges it derives for a well-formed block (R165, R178), and a motion
block run from its first step event to its last (R231). -/

namespace Sys2Proof.Machine

/-! ### The invariant of every step -/

/-- R25: `cycles_per_step_event` "always equals `step_prescaler * step_ceiling`". -/
abbrev TimerConsistent (s : State) : Prop := s.cyclesPerStepEvent = period s.stepPrescaler s.stepCeiling

/-- R35: `pwm_counter` "stays in `[1, CONFIG_BEAMDYNAMICS_EVERY]`". -/
abbrev PwmInRange (s : State) : Prop := 1 ≤ s.pwmCounter ∧ s.pwmCounter ≤ s.cfg.beamEvery

/-- R34, R215: `busy` is true only between the `StepEnter` and the `StepExit` of a motion block. -/
abbrev BusyInsideStep (s : State) : Prop := s.busy = true → motionCurrent s = true ∧ s.homing = none

/-- R264, R265: while a `homing_cycle` runs the step timer is disarmed and no invocation is under way; no allowance
exceeds the overshoot count. -/
def HomingAlone (s : State) : Prop :=
  ∀ h, s.homing = some h →
    s.processingFlag = false ∧ s.busy = false ∧ ∀ a : Axis, h.allowance.get a ≤ homingOvershoot

/-- R21, R75: `current_block` is the block at the head of the queue, from its fetch to its discard, and it is a motion
block (an assist block ends in the event that fetches it, R230). -/
def CurrentIsHead (s : State) : Prop :=
  ∀ blk, s.currentBlock = some blk →
    motionCurrent s = true ∧ ∃ record rest, s.queue = record :: rest ∧ decodeBlock record = .ok blk

/-- R83: the queue holds a whole number of 48-byte records. -/
abbrev QueueWhole (s : State) : Prop := ∀ record ∈ s.queue, record.length = blockLength

/-- R113, U2: the block under execution in a machine that is `strict` is well-formed. R197, U6: in every machine a `LINE`
under execution does not divide by zero. -/
def CurrentIsVouched (s : State) : Prop :=
  (s.cfg.strict = true → ∀ blk, s.currentBlock = some blk → blk.toInstr.wellFormed s.cfg = true) ∧
  ∀ b, s.currentBlock = some (.line b) → b.nominalRate ≠ 0

/-- R23, R24, R28: `step_events_completed`, `adjusted_rate` and `pixel_counter`, unbounded naturals in the model, stay in the
`u32` the spec gives them. -/
abbrev CountersFit (s : State) : Prop :=
  s.stepEventsCompleted < 2 ^ 32 ∧ s.adjustedRate < 2 ^ 32 ∧ s.pixelCounter < 2 ^ 32

/-- The invariant of every step, under the parameter constraints of R8. -/
structure Invariant (s : State) : Prop where
  cfgValid : s.cfg.Valid
  timer : TimerConsistent s
  pwm : PwmInRange s
  busy : BusyInsideStep s
  homing : HomingAlone s
  head : CurrentIsHead s
  vouched : CurrentIsVouched s
  queue : QueueWhole s
  counters : CountersFit s

/-! ### Ranges inside a well-formed block -/

/-- R178: an accumulator between two step events of a block of `count` events lies in `(-count, 0]`. -/
abbrev CounterInRange (count : Nat) (counter : Int) : Prop := -(count : Int) < counter ∧ counter ≤ 0

/-- R165, R178, R23: the registers of a well-formed motion block under execution. -/
structure BlockRanges (b : MotionBlock) (s : State) : Prop where
  /-- R178, for each axis. -/
  counter : ∀ a : Axis, CounterInRange (eventCount b) (s.counter.get a)
  /-- R165. -/
  rate : s.cfg.minimumStepsPerMinute ≤ s.adjustedRate ∧ s.adjustedRate ≤ b.nominalRate.toNat
  /-- R23, R228: the block is not complete while it is current. -/
  completed : s.stepEventsCompleted < eventCount b

/-- Whenever a well-formed motion block is current its registers are in their ranges. -/
def MotionInRange (s : State) : Prop :=
  ∀ (k : MotionKind) (b : MotionBlock),
    s.currentBlock = some (k.block b) → k.BlockWellFormed s.cfg b → BlockRanges b s

/-! ### A motion block from its first step event to its last (R231) -/

/-- `n` step events of an instruction: `StepEnter`'s part and `StepExit`, `n` times over. -/
def runStepEvents (i : Instr) : Nat → State → Host.Outcome State Fault Refusal
  | 0, s => .next s
  | n + 1, s =>
    match exec i s with
    | .next t =>
      match exec i t with
      | .next u => runStepEvents i n u
      | .fault r => .fault r
      | .refused r => .refused r
    | .fault r => .fault r
    | .refused r => .refused r

/-- The signed number of steps axis `a` moves over a whole block: `steps[a]` in the direction of its dir bit (R231,
R30). -/
def signedSteps (b : MotionBlock) (a : Axis) : Int :=
  if dirNegative b.directionBits a then -((steps b).get a : Int) else ((steps b).get a : Int)

/-- One step event of one accumulator, with the pulses counted so far (R171). -/
def countPulses (steps count : Nat) : Nat → Int × Nat → Int × Nat
  | 0, p => p
  | n + 1, (counter, pulses) =>
    countPulses steps count n
      (axisCounter steps count counter, if axisPulse steps counter then pulses + 1 else pulses)

/-! ### The step timer's fire as the next event (R216) -/

/-- The next event of `s` is a step-timer fire, with `rest` ordered after it, it is enabled (R300), and the timer is not
programmed with the ceiling 0 of R136. -/
structure FireNext (s : State) (rest : List Event) : Prop where
  initialised : s.initialised = true
  agenda : s.agenda = .stepTimerFire :: rest
  processing : s.processingFlag = true
  homing : s.homing = none
  ceiling : s.stepCeiling ≠ 0

/-- The machine runs the block when it fetches it: one that is `strict` runs well-formed blocks only (R113, U2), any other
every block (R362, log 13). -/
def Runs (c : Config) (blk : Block) : Prop := c.strict = true → blk.toInstr.wellFormed c = true

/-- `s` when that fire has been taken and nothing else has happened: the timed shadow registers hold its time (R40,
R138). -/
def fired (s : State) (rest : List Event) : State :=
  { s with
    agenda := rest
    now := max s.now (s.stepLastFire + stepPeriod s)
    stepLastFire := max s.now (s.stepLastFire + stepPeriod s) }

/-- The stop the limit inputs request: "the first in the order X1, X2, Y1, Y2, Z1, Z2" (R220). -/
def requestedByLimits (s : Sense) : Option StopStatus :=
  ([(s.x1Limit, StopStatus.limitHitX1), (s.x2Limit, .limitHitX2), (s.y1Limit, .limitHitY1), (s.y2Limit, .limitHitY2),
    (s.z1Limit, .limitHitZ1), (s.z2Limit, .limitHitZ2)].find? fun p => p.1).map fun p => p.2

/-! ### The core's own next event (R300, R313) -/

/-- A timer event or a homing iteration that is enabled (R300). -/
def TimerEventEnabled (s : State) (e : Event) : Prop :=
  (e = .pulseResetFire ∧ s.pulseArmed = true) ∨ (e = .beamResetFire ∧ s.beamArmed = true) ∨
  (e = .homingIter ∧ s.homing ≠ none) ∨ (e = .stepTimerFire ∧ s.processingFlag = true ∧ s.homing = none)

/-- A host operation stands at the head of the agenda and cannot occur yet (R300; log 3). -/
def HostOpWaits (s : State) : Prop :=
  ∃ bytes rest, s.agenda = .hostOp bytes :: rest ∧ (s.busy = true ∨ s.homing ≠ none)

/-! ### Where a motion block goes on (R136, R197) -/

/-- The dimming of the block does not divide by zero (R197, U6); a `RASTER_LINE` is not dimmed (R200). -/
abbrev Dimmable (k : MotionKind) (b : MotionBlock) : Prop := k = .line → b.nominalRate ≠ 0

/-- `rate_to_cycles(r)` is not 0 (R132), so that the step timer has a period when it is programmed for `r` (R136): true of
every rate up to `60 * F_CPU`. -/
abbrev HasPeriod (c : Config) (r : Nat) : Prop := 60 * c.fCpu / max r c.minimumStepsPerMinute ≠ 0

/-- The rate the `StepExit` of a motion block leaves (R154 to R157), `n` being the number of the step event. -/
def rateAfterExit (b : MotionBlock) (s : State) : Nat :=
  let n := s.stepEventsCompleted + 1
  let due := s.cfg.fCpu / s.cfg.accelerationTicksPerSecond < s.accCounter + s.cyclesPerStepEvent
  if n < b.accelerateUntil.toNat then
    (if due then min (s.adjustedRate + b.rateDelta.toNat) b.nominalRate.toNat else s.adjustedRate)
  else if n < b.decelerateAfter.toNat then b.nominalRate.toNat
  else if n = b.decelerateAfter.toNat then s.adjustedRate
  else if due then max (s.adjustedRate - b.rateDelta.toNat) b.finalRate.toNat
  else s.adjustedRate

/-- A `StepExit` leaves the step timer with a period: it programs none of 0, and if it programs none at all (R158) the timer
stands at none of 0 (R136). -/
def ExitHasPeriod (b : MotionBlock) (s : State) : Prop :=
  if rateAfterExit b s = s.adjustedRate then s.stepCeiling ≠ 0 else HasPeriod s.cfg (rateAfterExit b s)

/-! ### One step event of a motion block (R171, R172) -/

/-- What R171 does to axis `a` in a step event that takes `s` to `t`, `before` the accumulator it starts from: a pulse
exactly if the sum is positive, with the accumulator, the position and the step bit (seen before the XOR with the
invert mask, R172) as the rule says; the dir bit is the block's. -/
def AxisStepped (b : MotionBlock) (a : Axis) (before : Int) (s t : State) : Prop :=
  (if 0 < before + (steps b).get a then
    t.counter.get a = before + (steps b).get a - eventCount b ∧ t.pulses.get a = s.pulses.get a + 1 ∧
      t.position.get a = s.position.get a + (if dirNegative b.directionBits a then -1 else 1) ∧
      (t.outBits ^^^ s.cfg.invertMask).getLsbD a.index = true
  else
    t.counter.get a = before + (steps b).get a ∧ t.pulses.get a = s.pulses.get a ∧
      t.position.get a = s.position.get a ∧
      (t.outBits ^^^ s.cfg.invertMask).getLsbD a.index = b.directionBits.getLsbD a.index) ∧
  (t.outBits ^^^ s.cfg.invertMask).getLsbD (3 + a.index) = dirNegative b.directionBits a

/-! ### Exact rationals (R197, R283) -/

/-- The exact value of a finite `f64` (R283: "taken as the exact rational value of the `f64`"). -/
def f64Value (v : F64) : ℚ :=
  if f64Negative v then -((f64Num v : ℚ) / f64Den v) else (f64Num v : ℚ) / f64Den v

/-- The steps-per-millimetre constant of an axis (R8). -/
def stepsPerMmValue (c : Config) (a : Axis) : ℚ := ((c.stepsPerMm.get a).num : ℚ) / (c.stepsPerMm.get a).den

/-- `round_half_away(q)` (R283). -/
def roundHalfAway (q : ℚ) : Int := if 0 ≤ q then ⌊q + 1 / 2⌋ else -⌊-q + 1 / 2⌋

/-- `dimm` of R197 as a rational. -/
def dimmValue (c : Config) (intensity : Byte) : ℚ :=
  (c.beamStart.num : ℚ) / c.beamStart.den +
    (1 - (c.beamStart.num : ℚ) / c.beamStart.den) * intensity.toNat / 255

/-- `adjusted` of R197 as a rational. -/
def adjustedValue (c : Config) (spm : Nat) (intensity : Byte) (nominal : Nat) : ℚ :=
  intensity.toNat * ((1 - dimmValue c intensity) + dimmValue c intensity * spm / nominal)

/-! ### The trace a step adds (R49) -/

/-- The entries of `t`'s trace that are not in `s`'s. -/
def newTrace (s t : State) : List Obs := t.trace.drop s.trace.length

end Sys2Proof.Machine
end

