-- ==== Sys2Proof/Certificates/Slice0/Obligations.lean ====
section
/-! DEFINITION. The statements about the model, each a proposition that formalises the rules its docstring names. A
frame is written as an equation `t = { s with … }`: every field it does not list is unchanged. -/

open Sys2Proof Sys2Proof.Machine

/-! ### Encoding -/

/-- 30_encoding.md: the decoder of an instruction's own space reads back what the encoder writes, for every value of
every operand an encoding admits. -/
def Obligations.DecodeOfEncodeIsIdentity : Prop :=
  ∀ i : Instr, i.encodable = true → decode i.space (encode i) = .ok i

/-- R108, R109: a host operation has one encoding: what the host port decodes, the encoder writes back. -/
def Obligations.EncodeOfDecodedHostOperation : Prop :=
  ∀ (bytes : List Byte) (i : Instr), decode .hostPort bytes = .ok i →
    encode i = bytes ∧ i.space = .hostPort ∧ i.encodable = true

/-- R101: a motion block has one encoding: no bit of its record is dropped. -/
def Obligations.EncodeOfDecodedMotionBlock : Prop :=
  ∀ (record : List Byte) (k : MotionKind) (b : MotionBlock), decodeBlock record = .ok (k.block b) →
    encode (k.block b).toInstr = record ∧ b.StepBitsClear

/-- 30_encoding.md section 4 (R110, R111): every kind of reserved encoding is rejected, by its own name, and a step
whose fetch or host port meets one is refused. -/
def Obligations.ReservedEncodingsAreRefused : Prop :=
  (∀ r : List Byte, r.length = 48 → 8 ≤ (byteAt r 0).toNat → decodeBlock r = .error .reservedBlockType) ∧
  (∀ r : List Byte, r.length = 48 → (byteAt r 0).toNat ≤ 1 → byteAt r 1 &&& 0b11000111#8 ≠ 0 →
    decodeBlock r = .error .reservedDirectionBits) ∧
  (∀ r : List Byte, r.length = 48 → (byteAt r 0).toNat ≤ 1 → byteAt r 1 &&& 0b11000111#8 = 0 → byteAt r 3 ≠ 0 →
    decodeBlock r = .error .reservedByte) ∧
  (∀ bs : List Byte, 0x0E ≤ (byteAt bs 0).toNat → decode .hostPort bs = .error .reservedHostCode) ∧
  (∀ v : Byte, 7 ≤ v.toNat → decode .hostPort [0x04, v] = .error .reservedStatus) ∧
  (∀ (pad : List Byte) (x y z : F64), pad.length = 7 → pad ≠ List.replicate 7 0 →
    decode .hostPort (0x0B :: pad ++ f64Bytes x ++ f64Bytes y ++ f64Bytes z) = .error .nonzeroPadding) ∧
  (∀ x y z : F64, (f64Finite x = false ∨ f64Finite y = false ∨ f64Finite z = false) →
    decode .hostPort (0x0B :: List.replicate 7 0 ++ f64Bytes x ++ f64Bytes y ++ f64Bytes z) = .error .notFinite) ∧
  (∀ (s : State) (bytes : List Byte) (rest : List Event) (why : Reject), s.initialised = true →
    s.agenda = .hostOp bytes :: rest → s.busy = false → s.homing = none → decode .hostPort bytes = .error why →
    step s = .refused (.reservedEncoding why)) ∧
  (∀ (s : State) (record : List Byte) (more : List (List Byte)) (rest : List Event) (why : Reject), FireNext s rest →
    s.busy = false → s.stopRequested = false → limitHit s = none → s.currentBlock = none →
    s.queue = record :: more → decodeBlock record = .error why → step s = .refused (.reservedEncoding why))

/-- 30_encoding.md sections 2 and 4: words written out from the tables decode to the instructions they stand for. -/
def Obligations.KnownWordsDecode : Prop :=
  decode .blockQueue
      [0x00, 0x10, 0xC8, 0x00, 0x14, 0, 0, 0, 0x0A, 0, 0, 0, 0, 0, 0, 0, 0x14, 0, 0, 0, 0x70, 0x17, 0, 0, 0x28, 0x23,
        0, 0, 0x70, 0x17, 0, 0, 0xE8, 0x03, 0, 0, 0x05, 0, 0, 0, 0x0F, 0, 0, 0, 0, 0, 0, 0] =
    .ok (.line ⟨0b010000#6, 200, 20, 10, 0, 20, 6000, 9000, 6000, 1000, 5, 15, 0⟩) ∧
  decode .blockQueue (0x06 :: List.replicate 47 0xFF) = .ok .aux2Enable ∧
  decode .hostPort [0x04, 0x05] = .ok (.requestStop .limitHitZ1) ∧
  decode .hostPort [0x0D, 0xC8] = .ok (.controlLaserIntensity 200)

/-! ### The step runs the decoded instruction -/

/-- R222, R225, R229: an invocation that reaches the fetch runs the block the head record decodes to, after the laser
pulse of step 5 and the interlock cut of step 4. A machine that is `strict` refuses an ill-formed motion block there
(R113, U2); one that is not gives every block its meaning (R362). That the refusal stands at the fetch, and that a
parameter tells the two machines apart, is the model's choice (log 13). -/
def Obligations.StepRunsTheFetchedBlock : Prop :=
  ∀ (s : State) (rest : List Event) (record : List Byte) (more : List (List Byte)) (blk : Block),
    FireNext s rest → s.busy = false → s.stopRequested = false → limitHit s = none → s.currentBlock = none →
    s.queue = record :: more → decodeBlock record = .ok blk →
    (Runs s.cfg blk → step s = exec blk.toInstr (beamStepPulse (interlockCut (fired s rest)))) ∧
    (s.cfg.strict = true → blk.toInstr.wellFormed s.cfg = false → step s = .refused .illFormedBlock)

/-- R225, R226, R229: an invocation with a block current, and the `StepExit` that follows it, run that block. -/
def Obligations.StepRunsTheCurrentBlock : Prop :=
  (∀ (s : State) (rest : List Event) (blk : Block),
    FireNext s rest → s.busy = false → s.stopRequested = false → limitHit s = none → s.currentBlock = some blk →
    step s = exec blk.toInstr (beamStepPulse (interlockCut (fired s rest)))) ∧
  (∀ (s : State) (rest : List Event) (k : MotionKind) (b : MotionBlock),
    s.initialised = true → s.agenda = .stepExit :: rest → s.busy = true → s.currentBlock = some (k.block b) →
    step s = exec (k.block b).toInstr { s with agenda := rest })

/-- R91, R109, R300: a host operation the host issues runs as the instruction its bytes decode to. -/
def Obligations.StepRunsTheHostOperation : Prop :=
  ∀ (s : State) (bytes : List Byte) (rest : List Event) (i : Instr),
    s.initialised = true → s.agenda = .hostOp bytes :: rest → s.busy = false → s.homing = none →
    decode .hostPort bytes = .ok i → step s = exec i { s with agenda := rest }

/-- R343: before the first `init()` no event but `init()` is defined (any other is refused, log 12); that one initialises
the machine, unless its step timer would be programmed with period 0 (R136). -/
def Obligations.OnlyInitBeforeTheFirstInit : Prop :=
  ∀ s : State, s.initialised = false →
    ((∀ rest, s.agenda ≠ .hostOp [0x00] :: rest) → step s = .refused .beforeInit) ∧
    (∀ rest, s.agenda = .hostOp [0x00] :: rest → HasPeriod s.cfg s.cfg.minimumStepsPerMinute →
      ∃ t, step s = .next t ∧ t.initialised = true ∧ t.processingFlag = false ∧ t.position = ⟨0, 0, 0⟩) ∧
    (∀ rest, s.agenda = .hostOp [0x00] :: rest → ¬HasPeriod s.cfg s.cfg.minimumStepsPerMinute →
      step s = .refused .zeroTimerPeriod)

/-- R313, R320, R369 to R371 (that the core takes its own events in the order of their due times, and how that is told,
is the model's: log 9). With nothing ordered, and while a host operation has to wait (log 3), the core takes its own next
event and the agenda stays as it is: the rest of a step event under way, else the earliest due of the enabled timer
events, of which it takes one whenever there is one; an idle core with nothing pending stays as it is. -/
def Obligations.CoreTakesTheEarliestDueEvent : Prop :=
  (∀ s : State, s.initialised = true → s.agenda = [] → s.busy = false → s.processingFlag = false →
    s.pulseArmed = false → s.beamArmed = false → s.homing = none → step s = .next s) ∧
  (∀ s : State, s.initialised = true → (s.agenda = [] ∨ HostOpWaits s) →
    (∀ e, ownNextEvent s = some e → step s = perform e s) ∧
    (ownNextEvent s = none → step s = .next s) ∧
    ∀ t, step s = .next t → t.agenda = s.agenda) ∧
  (∀ s : State, s.busy = true → motionCurrent s = true → ownNextEvent s = some .stepExit) ∧
  (∀ (s : State) (f : Event), (s.busy = false ∨ motionCurrent s = false) → TimerEventEnabled s f →
    ∃ e, ownNextEvent s = some e ∧ TimerEventEnabled s e ∧ dueTime e s ≤ dueTime f s) ∧
  (∀ s : State,
    dueTime .stepTimerFire s = s.stepLastFire + s.stepPrescaler.value * s.stepCeiling.toNat ∧
    dueTime .pulseResetFire s = s.pulseDeadline ∧ dueTime .beamResetFire s = s.beamDeadline ∧
    ∀ h, s.homing = some h → dueTime .homingIter s = h.resumeAt)

/-! ### The step timer's invocation -/

/-- R216: a fire that finds `busy = 1` is dropped: no register, pin, queue, stream or trace changes (the timed shadow
alone records the fire). -/
def Obligations.DroppedTickChangesNothing : Prop :=
  ∀ (s : State) (rest : List Event), FireNext s rest → s.busy = true → step s = .next (fired s rest)

/-- R219: an invocation that finds `stop_requested` set disarms, flushes the queue and abandons the current block, and
changes nothing else. -/
def Obligations.StopPathFlushesAndDisarms : Prop :=
  ∀ (s : State) (rest : List Event), FireNext s rest → s.busy = false → s.stopRequested = true →
    step s = .next
      { fired s rest with
        processingFlag := false, queue := [], currentBlock := none, busy := false
        trace := s.trace ++ [.plannerResetBlockBuffer] }

/-- R220: the door or chiller cut, then the first limit in the order X1, X2, Y1, Y2, Z1, Z2; a limit requests its stop
and the invocation returns. Without `ENABLE_LASER_INTERLOCKS` no input is looked at. -/
def Obligations.InterlocksAndLimitsOfStepFour : Prop :=
  (∀ (s : State) (rest : List Event) (kind : StopStatus), FireNext s rest → s.busy = false → s.stopRequested = false →
    s.cfg.enableLaserInterlocks = true → requestedByLimits s.sense = some kind →
    step s = .next
      { fired s rest with
        laserDuty := if s.sense.doorOpen = true ∨ s.sense.chillerOff = true then 0 else s.laserDuty
        stopRequested := true, stopStatus := kind, busy := false
        trace :=
          s.trace ++
            ((if s.sense.doorOpen = true ∨ s.sense.chillerOff = true then [.laserDuty 0] else []) ++ [.serialStop]) }) ∧
  (∀ (s : State) (rest : List Event), FireNext s rest → s.busy = false → s.stopRequested = false →
    s.cfg.enableLaserInterlocks = true → requestedByLimits s.sense = none →
    step s = dispatchBlock (beamStepPulse
      (if s.sense.doorOpen = true ∨ s.sense.chillerOff = true then
        { fired s rest with laserDuty := 0, trace := s.trace ++ [.laserDuty 0] } else fired s rest))) ∧
  (∀ (s : State) (rest : List Event), FireNext s rest → s.busy = false → s.stopRequested = false →
    s.cfg.enableLaserInterlocks = false → step s = dispatchBlock (beamStepPulse (fired s rest)))

/-- R223: an invocation with no current block and an empty queue disarms the step timer; the laser pulse of step 5 has
been driven. -/
def Obligations.UnderrunDisarms : Prop :=
  ∀ (s : State) (rest : List Event), FireNext s rest → s.busy = false → s.stopRequested = false → limitHit s = none →
    s.currentBlock = none → s.queue = [] →
    step s = .next { beamStepPulse (interlockCut (fired s rest)) with processingFlag := false, busy := false }

/-- R309: "no laser pulse is ever issued with a non-zero duty while an interlock input is 1 at step 4": such an
invocation neither raises the laser pin nor arms the beam timer, whatever block it runs. -/
def Obligations.NoLaserPulseWithInterlockOpen : Prop :=
  ∀ (s t : State) (rest : List Event), FireNext s rest → interlockOpen s = true → step s = .next t →
    Obs.laserPin true ∉ newTrace s t ∧ (∀ p c, Obs.beamTimer p c ∉ newTrace s t) ∧
      (t.laserPin = true → s.laserPin = true)

/-! ### The two one-shots and the other events -/

/-- R175: the pulse-shaper fire returns the step pins to idle and disarms itself; not armed, it cannot occur. -/
def Obligations.PulseResetRestoresIdle : Prop :=
  ∀ (s : State) (rest : List Event), s.initialised = true → s.agenda = .pulseResetFire :: rest →
    (s.pulseArmed = true → step s = .next
      { s with
        agenda := rest, now := max s.now s.pulseDeadline, stepPin := stepPart s.cfg.invertMask, pulseArmed := false
        trace := s.trace ++ [.stepPin (stepPart s.cfg.invertMask)] }) ∧
    (s.pulseArmed = false → step s = .refused .eventNotEnabled)

/-- R196: the beam fire drops the laser pin and disarms itself; not armed, it cannot occur. -/
def Obligations.BeamResetDropsThePin : Prop :=
  ∀ (s : State) (rest : List Event), s.initialised = true → s.agenda = .beamResetFire :: rest →
    (s.beamArmed = true → step s = .next
      { s with
        agenda := rest, now := max s.now s.beamDeadline, laserPin := false, beamArmed := false
        trace := s.trace ++ [.laserPin false] }) ∧
    (s.beamArmed = false → step s = .refused .eventNotEnabled)

/-- R76, R77, R47: a planner push, a raster push and a change of the sense inputs change the queue, the stream and the
inputs, and nothing else. -/
def Obligations.EnvironmentEventsChangeOnlyTheirOwn : Prop :=
  (∀ (s : State) (record : List Byte) (rest : List Event), s.initialised = true →
    s.agenda = .plannerPush record :: rest → record.length = 48 →
    step s = .next { s with agenda := rest, queue := s.queue ++ [record] }) ∧
  (∀ (s : State) (byte : Byte) (rest : List Event), s.initialised = true → s.agenda = .rasterPush byte :: rest →
    step s = .next { s with agenda := rest, raster := s.raster ++ [byte] }) ∧
  (∀ (s : State) (sense : Sense) (rest : List Event), s.initialised = true → s.agenda = .senseChange sense :: rest →
    step s = .next { s with agenda := rest, sense := sense })

/-- R300: a step-timer fire with `processing_flag = 0` or during homing, a `StepExit` with `busy = 0` and a homing
iteration with no homing under way cannot occur. A fire of a timer that stands at ceiling 0 is refused (R136, U3; log 8). -/
def Obligations.DisabledEventsAreRefused : Prop :=
  ∀ (s : State) (rest : List Event), s.initialised = true →
    (s.agenda = .stepTimerFire :: rest → (s.processingFlag = false ∨ s.homing ≠ none) →
      step s = .refused .eventNotEnabled) ∧
    (s.agenda = .stepTimerFire :: rest → s.processingFlag = true → s.homing = none → s.stepCeiling = 0 →
      step s = .refused .zeroTimerPeriod) ∧
    (s.agenda = .stepExit :: rest → s.busy = false → step s = .refused .eventNotEnabled) ∧
    (s.agenda = .homingIter :: rest → s.homing = none → step s = .refused .eventNotEnabled)

/-- R300: a host operation is enabled only when `busy = 0` and no `homing_cycle` runs, and "an event not enabled cannot
occur": `exec` refuses it otherwise (log 14). In a run no step comes to this refusal: an operation that is not enabled
waits at the head of the agenda and takes its effect later (log 3; `CoreTakesTheEarliestDueEvent`). -/
def Obligations.HostOperationsNeedAReadyCore : Prop :=
  ∀ (i : Instr) (s : State), i.space = .hostPort → i.encodable = true → (s.busy = true ∨ s.homing ≠ none) →
    exec i s = .refused .hostOpNotEnabled

/-! ### Timer Controller -/

/-- R131: the smallest prescaler whose ceiling fits in 16 bits; saturation above. -/
def Obligations.SelectPrescalerIsTheSmallestFitting : Prop :=
  (∀ c : Nat, c ≤ 67108863 →
    (selectPrescaler c).2.toNat = c >>> (selectPrescaler c).1.shift ∧ c >>> (selectPrescaler c).1.shift ≤ 0xFFFF ∧
      ∀ p : Prescaler, p.value < (selectPrescaler c).1.value → 0xFFFF < c >>> p.shift) ∧
  (∀ c : Nat, 67108863 < c → selectPrescaler c = (.div1024, 0xFFFF#16) ∧ ∀ p : Prescaler, 0xFFFF < c >>> p.shift)

/-- R140, and the saturated period of R139: the achieved period is the requested one with its low bits cleared. -/
def Obligations.AchievedPeriodIsTheRequestedOneTruncated : Prop :=
  (∀ c : Nat, c ≤ 67108863 →
    achievedPeriod c = c - c % 2 ^ (selectPrescaler c).1.shift ∧ achievedPeriod c ≤ c ∧
      c < achievedPeriod c + 2 ^ (selectPrescaler c).1.shift) ∧
  (∀ c : Nat, 67108863 < c → achievedPeriod c = 67107840)

/-- R132, R133, R135: `set_step_rate(r)` programs the timer for `(60 * F_CPU) div max(r, MINIMUM)` cycles, keeps the
achieved period, and writes nothing else. R136, U3, D14: for a period of 0 it programs ceiling 0, and no step that does so
goes on: a step that answers a next state leaves ceiling 0 only where it was before. -/
def Obligations.SetStepRateProgramsTheTimer : Prop :=
  (∀ (r : Nat) (s : State),
    let c := 60 * s.cfg.fCpu / max r s.cfg.minimumStepsPerMinute
    setStepRate r s =
      { s with
        stepPrescaler := (selectPrescaler c).1
        stepCeiling := (selectPrescaler c).2
        cyclesPerStepEvent := (selectPrescaler c).1.value * (selectPrescaler c).2.toNat
        trace := s.trace ++ [.stepTimer (selectPrescaler c).1 (selectPrescaler c).2] }) ∧
  (∀ c : Nat, (selectPrescaler c).2 = 0 ↔ c = 0) ∧ selectPrescaler 0 = (.div1, 0) ∧ achievedPeriod 0 = 0 ∧
  ∀ s t : State, step s = .next t → t.stepCeiling = 0 → s.stepCeiling = 0

/-! ### Motion blocks -/

/-- R222, R224, R226 with R171 to R174: a `LINE` or `RASTER_LINE` that is fetched is initialised and makes its first
step event, and the machine stands between `StepEnter` and `StepExit`. A `LINE` with `nominal_rate = 0` is refused (R197,
U6), and a block whose initial rate has no period (R136, U3). -/
def Obligations.FetchedMotionBlockMakesItsFirstStepEvent : Prop :=
  (∀ (b : MotionBlock) (s : State), b.nominalRate = 0 → exec (.line b) s = .refused .zeroNominalRate) ∧
  (∀ (k : MotionKind) (b : MotionBlock) (s : State), s.busy = false → s.currentBlock = none → Dimmable k b →
    ¬HasPeriod s.cfg b.initialRate.toNat → exec (k.block b).toInstr s = .refused .zeroTimerPeriod) ∧
  ∀ (k : MotionKind) (b : MotionBlock) (s : State), s.busy = false → s.currentBlock = none → Dimmable k b →
    HasPeriod s.cfg b.initialRate.toNat →
    ∃ t, exec (k.block b).toInstr s = .next t ∧
      t.currentBlock = some (k.block b) ∧ t.busy = true ∧ t.stepEventsCompleted = 0 ∧ t.pixelCounter = 0 ∧
      t.adjustedRate = b.initialRate.toNat ∧
      t.accCounter = s.cfg.fCpu / s.cfg.accelerationTicksPerSecond / 2 ∧
      (t.stepPrescaler, t.stepCeiling) =
        selectPrescaler (60 * s.cfg.fCpu / max b.initialRate.toNat s.cfg.minimumStepsPerMinute) ∧
      t.cyclesPerStepEvent = t.stepPrescaler.value * t.stepCeiling.toNat ∧
      t.laserDuty =
        (match k with
          | .line => dim s.cfg b.initialRate.toNat b.nominalLaserIntensity b.nominalRate.toNat
          | .raster => 0) ∧
      (∀ a : Axis, AxisStepped b a (-((b.stepEventCount.toNat / 2 : Nat) : Int)) s t) ∧
      t.dirPin = dirPart t.outBits ∧ t.stepPin = stepPart t.outBits ∧ t.pulseArmed = true ∧
      t.pulseDeadline = s.now + s.cfg.pulseMicroseconds * s.cfg.fCpu / 1000000 ∧
      t.trace = s.trace ++
        [.stepTimer t.stepPrescaler t.stepCeiling, .laserDuty t.laserDuty, .dirPin t.dirPin, .stepPin t.stepPin,
          .armPulse] ∧
      t = { s with
        currentBlock := t.currentBlock, busy := t.busy, stepEventsCompleted := t.stepEventsCompleted
        pixelCounter := t.pixelCounter, adjustedRate := t.adjustedRate, accCounter := t.accCounter
        stepPrescaler := t.stepPrescaler, stepCeiling := t.stepCeiling, cyclesPerStepEvent := t.cyclesPerStepEvent
        laserDuty := t.laserDuty, counter := t.counter, position := t.position, pulses := t.pulses
        outBits := t.outBits, dirPin := t.dirPin, stepPin := t.stepPin, pulseArmed := t.pulseArmed
        pulseDeadline := t.pulseDeadline, trace := t.trace }

/-- R226 with R171 to R174: a motion block already current makes its next step event without being initialised again;
its direction pins are written before its step pins, and those before the pulse shaper is armed (R87). With a step timer
that stands at ceiling 0 the model does not go on (R136, log 8). -/
def Obligations.CurrentMotionBlockMakesItsNextStepEvent : Prop :=
  ∀ (k : MotionKind) (b : MotionBlock) (s : State), s.busy = false → s.currentBlock = some (k.block b) → Dimmable k b →
    (s.stepCeiling = 0 → exec (k.block b).toInstr s = .refused .zeroTimerPeriod) ∧
    (s.stepCeiling ≠ 0 → ∃ t, exec (k.block b).toInstr s = .next t ∧ t.busy = true ∧
      (∀ a : Axis, AxisStepped b a (s.counter.get a) s t) ∧
      t.dirPin = dirPart t.outBits ∧ t.stepPin = stepPart t.outBits ∧ t.pulseArmed = true ∧
      t.pulseDeadline = s.now + s.cfg.pulseMicroseconds * s.cfg.fCpu / 1000000 ∧
      t.trace = s.trace ++ [.dirPin t.dirPin, .stepPin t.stepPin, .armPulse] ∧
      t = { s with
        busy := t.busy, counter := t.counter, position := t.position, pulses := t.pulses, outBits := t.outBits
        dirPin := t.dirPin, stepPin := t.stepPin, pulseArmed := t.pulseArmed, pulseDeadline := t.pulseDeadline
        trace := t.trace })

/-- R226, R228, R49: `StepExit` counts the step event and completes the block exactly when the count reaches
`step_event_count`; it writes no pin, no position, no accumulator and no Supervisor register but `busy`. What it adds to
the trace is, in this order: the timer and the dimming on a change of the rate, the read and the intensity of a raster
sample, the strobes of completion. A step event that would take the count past `2^32 - 1` is refused (R352, U11). -/
def Obligations.StepExitCountsAndCompletes : Prop :=
  (∀ (k : MotionKind) (b : MotionBlock) (s : State), s.busy = true → Dimmable k b →
    2 ^ 32 - 1 < s.stepEventsCompleted + 1 → exec (k.block b).toInstr s = .refused .stepCountOverflow) ∧
  ∀ (k : MotionKind) (b : MotionBlock) (s : State), s.busy = true → CountFits s → Dimmable k b → ExitHasPeriod b s →
    let n := s.stepEventsCompleted + 1
    let sampled := k = .raster ∧ b.accelerateUntil.toNat ≤ n ∧ n < b.decelerateAfter.toNat ∧
      b.pixelSteps.toNat ≤ s.pixelCounter + 1
    ∃ t, exec (k.block b).toInstr s = .next t ∧ t.busy = false ∧
      t.stepEventsCompleted = n ∧
      (n = b.stepEventCount.toNat → t.currentBlock = none ∧ t.queue = s.queue.tail) ∧
      (n ≠ b.stepEventCount.toNat → t.currentBlock = s.currentBlock ∧ t.queue = s.queue) ∧
      (k = .line → t.raster = s.raster ∧ t.pixelCounter = s.pixelCounter ∧ t.freeDraws = s.freeDraws) ∧
      (∃ v, (∀ head more, s.raster = head :: more → v = head) ∧
        t.trace = s.trace ++
          (if t.adjustedRate = s.adjustedRate then [] else
            [.stepTimer t.stepPrescaler t.stepCeiling,
              .laserDuty (if k = .line then
                dim s.cfg t.adjustedRate b.nominalLaserIntensity b.nominalRate.toNat else 0)]) ++
          (if sampled then [.rasterRead v, .laserDuty t.laserDuty] else []) ++
          (if n = b.stepEventCount.toNat then
            .plannerDiscardCurrentBlock :: (if k = .line then [] else [.serialConsumeData]) else [])) ∧
      t = { s with
        stepEventsCompleted := t.stepEventsCompleted, adjustedRate := t.adjustedRate, accCounter := t.accCounter
        stepPrescaler := t.stepPrescaler, stepCeiling := t.stepCeiling, cyclesPerStepEvent := t.cyclesPerStepEvent
        laserDuty := t.laserDuty, pixelCounter := t.pixelCounter, raster := t.raster, freeDraws := t.freeDraws
        currentBlock := t.currentBlock, queue := t.queue, busy := t.busy, trace := t.trace }

/-- R151, R154 to R157: the rate and the acceleration counter a `StepExit` leaves, phase by phase, `n` being the
number of the step event. -/
def Obligations.SpeedProfileFollowsItsPhases : Prop :=
  ∀ (k : MotionKind) (b : MotionBlock) (s : State), s.busy = true → CountFits s → Dimmable k b → ExitHasPeriod b s →
    let n := s.stepEventsCompleted + 1
    let cpat := s.cfg.fCpu / s.cfg.accelerationTicksPerSecond
    let sum := s.accCounter + s.cyclesPerStepEvent
    ∃ t, exec (k.block b).toInstr s = .next t ∧
      (n < b.accelerateUntil.toNat →
        (cpat < sum → t.accCounter = sum - cpat ∧
          t.adjustedRate = min (s.adjustedRate + b.rateDelta.toNat) b.nominalRate.toNat) ∧
        (sum ≤ cpat → t.accCounter = sum ∧ t.adjustedRate = s.adjustedRate)) ∧
      (b.accelerateUntil.toNat ≤ n → n < b.decelerateAfter.toNat →
        t.accCounter = s.accCounter ∧ t.adjustedRate = b.nominalRate.toNat) ∧
      (b.accelerateUntil.toNat ≤ n → n = b.decelerateAfter.toNat →
        t.accCounter = cpat / 2 ∧ t.adjustedRate = s.adjustedRate) ∧
      (b.accelerateUntil.toNat ≤ n → b.decelerateAfter.toNat < n →
        (cpat < sum → t.accCounter = sum - cpat ∧
          t.adjustedRate = max (s.adjustedRate - b.rateDelta.toNat) b.finalRate.toNat) ∧
        (sum ≤ cpat → t.accCounter = sum ∧ t.adjustedRate = s.adjustedRate))

/-- R158, R200: the step timer is reprogrammed and the dimming refreshed exactly when the value of `adjusted_rate`
changes, for both kinds of motion block. What the intensity is in the end is stated for a `LINE`, whose intensity nothing
else writes (R201); that of a `RASTER_LINE` also follows its samples (`RasterSamplingInCruise`). A `StepExit` that would
leave the step timer no period is refused (R136, U3; log 8). -/
def Obligations.RateChangeReprogramsTimerAndDimming : Prop :=
  (∀ (k : MotionKind) (b : MotionBlock) (s : State), s.busy = true → CountFits s → Dimmable k b →
    ¬ExitHasPeriod b s →
    exec (k.block b).toInstr s = .refused .zeroTimerPeriod) ∧
  ∀ (k : MotionKind) (b : MotionBlock) (s : State), s.busy = true → CountFits s → Dimmable k b → ExitHasPeriod b s →
    ∃ t, exec (k.block b).toInstr s = .next t ∧
      (t.adjustedRate ≠ s.adjustedRate →
        let refreshed := match k with
          | .line => dim s.cfg t.adjustedRate b.nominalLaserIntensity b.nominalRate.toNat
          | .raster => 0
        (t.stepPrescaler, t.stepCeiling) =
          selectPrescaler (60 * s.cfg.fCpu / max t.adjustedRate s.cfg.minimumStepsPerMinute) ∧
        t.cyclesPerStepEvent = t.stepPrescaler.value * t.stepCeiling.toNat ∧
        [.stepTimer t.stepPrescaler t.stepCeiling, .laserDuty refreshed] <+: newTrace s t ∧
        (k = .line → t.laserDuty = refreshed)) ∧
      (t.adjustedRate = s.adjustedRate →
        t.stepPrescaler = s.stepPrescaler ∧ t.stepCeiling = s.stepCeiling ∧
        t.cyclesPerStepEvent = s.cyclesPerStepEvent ∧ (∀ p c, Obs.stepTimer p c ∉ newTrace s t) ∧
        (k = .line → t.laserDuty = s.laserDuty))

/-- R203, R204, R78, R81: what the `StepExit` of a `RASTER_LINE` does with the pixel counter, the raster stream and the
laser intensity. A read of an empty stream gives some byte, and what `serial_consume_data` drops is some number of
bytes: neither is fixed. -/
def Obligations.RasterSamplingInCruise : Prop :=
  ∀ (b : MotionBlock) (s : State), s.busy = true → CountFits s → ExitHasPeriod b s →
    let n := s.stepEventsCompleted + 1
    let cruise := b.accelerateUntil.toNat ≤ n ∧ n < b.decelerateAfter.toNat
    let sampled := cruise ∧ b.pixelSteps.toNat ≤ s.pixelCounter + 1
    ∃ t, exec (.rasterLine b) s = .next t ∧
      (¬cruise → t.pixelCounter = s.pixelCounter) ∧
      (cruise → ¬sampled → t.pixelCounter = s.pixelCounter + 1) ∧
      (sampled → t.pixelCounter = 0 ∧
        ∃ v, (s.raster = [] ∨ ∃ more, s.raster = v :: more) ∧
          t.laserDuty.toNat =
            (if v.toNat < 128 then 0 else (v.toNat - 128) * 2 * b.nominalLaserIntensity.toNat / 255) ∧
          [.rasterRead v, .laserDuty t.laserDuty] <:+: newTrace s t) ∧
      (¬sampled → t.laserDuty = (if t.adjustedRate = s.adjustedRate then s.laserDuty else 0) ∧
        ∀ v, Obs.rasterRead v ∉ newTrace s t) ∧
      (sampled → n ≠ b.stepEventCount.toNat → t.raster = s.raster.tail) ∧
      (¬sampled → n ≠ b.stepEventCount.toNat → t.raster = s.raster) ∧
      (sampled → n = b.stepEventCount.toNat → t.raster <:+ s.raster.tail) ∧
      (¬sampled → n = b.stepEventCount.toNat → t.raster <:+ s.raster) ∧
      (n = b.stepEventCount.toNat → Obs.serialConsumeData ∈ newTrace s t)

/-- R177: from the seed `-(N div 2)`, `N` step events of an axis with `steps ≤ N` emit exactly `steps` pulses and bring
the accumulator back to its seed. -/
def Obligations.ExactlyStepsPulsesInABlock : Prop :=
  ∀ steps n : Nat, 1 ≤ n → steps ≤ n →
    countPulses steps n n (-((n / 2 : Nat) : Int), 0) = (-((n / 2 : Nat) : Int), steps)

/-- R231, R232, R239: a well-formed motion block runs over exactly `step_event_count` step events; it stays current
before the last and is discarded by it, each axis has moved by its signed step count, with exactly `steps[a]`
pulses. -/
def Obligations.MotionBlockRunsToCompletion : Prop :=
  ∀ (k : MotionKind) (b : MotionBlock) (s : State),
    s.cfg.Valid → k.BlockWellFormed s.cfg b → s.busy = false → s.currentBlock = none →
    (∀ n, 0 < n → n < b.stepEventCount.toNat → ∃ t, runStepEvents (k.block b).toInstr n s = .next t ∧
      t.currentBlock = some (k.block b) ∧ t.queue = s.queue ∧ t.stepEventsCompleted = n) ∧
    ∃ t, runStepEvents (k.block b).toInstr b.stepEventCount.toNat s = .next t ∧
      t.currentBlock = none ∧ t.queue = s.queue.tail ∧ t.busy = false ∧
      t.stepEventsCompleted = b.stepEventCount.toNat ∧
      ∀ a : Axis, t.position.get a = s.position.get a + signedSteps b a ∧
        t.pulses.get a = s.pulses.get a + (steps b).get a ∧
        t.counter.get a = -((b.stepEventCount.toNat / 2 : Nat) : Int)

/-- R230, R233 to R238: each assist block writes its one output, leaves the queue one shorter and the core not busy,
and touches nothing else. -/
def Obligations.AssistBlocksWriteTheirOutput : Prop :=
  ∀ s : State,
    exec .airAssistEnable s = .next { s with
      airAssist := true, currentBlock := none, queue := s.queue.tail, busy := false
      trace := s.trace ++ [.airAssist true, .plannerDiscardCurrentBlock] } ∧
    exec .airAssistDisable s = .next { s with
      airAssist := false, currentBlock := none, queue := s.queue.tail, busy := false
      trace := s.trace ++ [.airAssist false, .plannerDiscardCurrentBlock] } ∧
    exec .aux1Enable s = .next { s with
      aux1Assist := true, currentBlock := none, queue := s.queue.tail, busy := false
      trace := s.trace ++ [.aux1Assist true, .plannerDiscardCurrentBlock] } ∧
    exec .aux1Disable s = .next { s with
      aux1Assist := false, currentBlock := none, queue := s.queue.tail, busy := false
      trace := s.trace ++ [.aux1Assist false, .plannerDiscardCurrentBlock] } ∧
    exec .aux2Enable s = .next { s with
      aux2Assist := true, currentBlock := none, queue := s.queue.tail, busy := false
      trace := s.trace ++ [.aux2Assist true, .plannerDiscardCurrentBlock] } ∧
    exec .aux2Disable s = .next { s with
      aux2Assist := false, currentBlock := none, queue := s.queue.tail, busy := false
      trace := s.trace ++ [.aux2Assist false, .plannerDiscardCurrentBlock] }

/-! ### Beam Modulator -/

/-- R190: the intensity register and nothing else; in particular not the laser pin. -/
def Obligations.ControlLaserIntensityWritesTheDutyOnly : Prop :=
  ∀ (v : Byte) (s : State), s.busy = false → s.homing = none →
    exec (.controlLaserIntensity v) s = .next { s with laserDuty := v, trace := s.trace ++ [.laserDuty v] }

/-- R191: the test comes before the increment; a pulse is issued when `pwm_counter` has reached `EVERY`, and the
counter resets to 1. -/
def Obligations.LaserPulseEveryEveryInvocations : Prop :=
  ∀ s : State,
    (s.cfg.beamEvery ≤ s.pwmCounter → beamStepPulse s = issueLaserPulse { s with pwmCounter := 1 }) ∧
    (s.pwmCounter < s.cfg.beamEvery → beamStepPulse s = { s with pwmCounter := s.pwmCounter + 1 })

/-- R192, R193: the three cases of a laser pulse. -/
def Obligations.LaserPulseCases : Prop :=
  ∀ s : State,
    (s.laserDuty = 0 → issueLaserPulse s = { s with laserPin := false, trace := s.trace ++ [.laserPin false] }) ∧
    (242 ≤ s.laserDuty.toNat →
      issueLaserPulse s = { s with laserPin := true, trace := s.trace ++ [.laserPin true] }) ∧
    (s.laserDuty ≠ 0 → s.laserDuty.toNat < 242 →
      let w := s.cfg.beamEvery * s.laserDuty.toNat * s.cyclesPerStepEvent / 256
      issueLaserPulse s =
        { s with
          laserPin := true
          beamPrescaler := (selectPrescaler w).1
          beamCeiling := (selectPrescaler w).2
          beamArmed := true
          beamDeadline := s.now + (selectPrescaler w).1.value * (selectPrescaler w).2.toNat
          trace := s.trace ++ [.laserPin true, .beamTimer (selectPrescaler w).1 (selectPrescaler w).2] })

/-- R197: the dimmed intensity is the floor of the exact rational of the formula, clamped to `[0, 255]`. -/
def Obligations.DimIsTheExactFloor : Prop :=
  ∀ (c : Config) (spm nominal : Nat) (intensity : Byte), c.Valid → 0 < nominal →
    ((dim c spm intensity nominal).toNat : Int) = min 255 (max 0 ⌊adjustedValue c spm intensity nominal⌋)

/-- R198: `dimm` lies in `[0, 1]`, `adjusted` never falls as the rate rises and lies between `I * (1 - dimm)` and `I`, so
that the result is within `[0, I]` and the clamp never acts; at the nominal rate it is `I`. -/
def Obligations.DimIsMonotoneAndBounded : Prop :=
  ∀ (c : Config) (spm spm' nominal : Nat) (intensity : Byte), c.Valid → 0 < nominal → spm ≤ spm' → spm' ≤ nominal →
    (0 ≤ dimmValue c intensity ∧ dimmValue c intensity ≤ 1) ∧
    adjustedValue c spm intensity nominal ≤ adjustedValue c spm' intensity nominal ∧
    (intensity.toNat * (1 - dimmValue c intensity) ≤ adjustedValue c spm intensity nominal ∧
      adjustedValue c spm intensity nominal ≤ intensity.toNat) ∧
    (dim c spm intensity nominal).toNat ≤ (dim c spm' intensity nominal).toNat ∧
    (dim c spm intensity nominal).toNat ≤ intensity.toNat ∧
    ((dim c spm intensity nominal).toNat : Int) = ⌊adjustedValue c spm intensity nominal⌋ ∧
    dim c nominal intensity nominal = intensity

/-- R204: the raster map, its value never above 254, and `I - 1` at byte 255 for `I` from 1 on. -/
def Obligations.RasterMapValues : Prop :=
  ∀ v i : Byte,
    (v.toNat < 128 → rasterMap v i = 0) ∧
    (128 ≤ v.toNat → (rasterMap v i).toNat = (v.toNat - 128) * 2 * i.toNat / 255) ∧
    (rasterMap v i).toNat ≤ 254 ∧
    (1 ≤ i.toNat → (rasterMap 255 i).toNat = i.toNat - 1) ∧
    rasterMap 255 0 = 0

/-! ### Supervisor and host operations -/

/-- R272: the first request is recorded and strobed, a second one changes nothing; no other register changes. -/
def Obligations.FirstStopRequestIsRecorded : Prop :=
  ∀ (kind later : StopStatus) (s : State), s.busy = false → s.homing = none →
    (s.stopRequested = false → ∃ t, exec (.requestStop kind) s = .next t ∧
      t = { s with stopRequested := true, stopStatus := kind, trace := s.trace ++ [.serialStop] } ∧
      exec (.requestStop later) t = .next t) ∧
    (s.stopRequested = true → exec (.requestStop kind) s = .next s)

/-- R274, R285: `stop_resume` clears flag and status and nothing else, so that after `request_stop(OK)` from a state
with no stop pending the machine stands as before but for the strobe. -/
def Obligations.StopResumeClearsTheStop : Prop :=
  ∀ s : State, s.busy = false → s.homing = none →
    exec .stopResume s = .next { s with stopRequested := false, stopStatus := .ok } ∧
    (s.stopRequested = false → s.stopStatus = .ok → ∃ t, exec (.requestStop .ok) s = .next t ∧
      exec .stopResume t = .next { s with trace := s.trace ++ [.serialStop] })

/-- R275, R276: arming and disarming write `processing_flag` alone; in the timed shadow the step timer's period starts
when the flag rises. -/
def Obligations.StartAndStopProcessing : Prop :=
  ∀ s : State, s.busy = false → s.homing = none →
    exec .startProcessing s = .next
      { s with processingFlag := true, stepLastFire := if s.processingFlag then s.stepLastFire else s.now } ∧
    exec .stopProcessing s = .next { s with processingFlag := false }

/-- R273, R277, R278: the three status queries put their value on the result port and write nothing else. -/
def Obligations.StatusQueriesReturnTheRegister : Prop :=
  ∀ s : State, s.busy = false → s.homing = none →
    (∃ r, r = Result.u8 (if s.processingFlag then 1 else 0) ∧
      exec .processing s = .next { s with resultPort := some r, trace := s.trace ++ [.result r] }) ∧
    (∃ r, r = Result.u8 (if s.stopRequested then 1 else 0) ∧
      exec .stopRequested s = .next { s with resultPort := some r, trace := s.trace ++ [.result r] }) ∧
    (∃ r, r = Result.u8 s.stopStatus.code ∧
      exec .stopStatus s = .next { s with resultPort := some r, trace := s.trace ++ [.result r] })

/-- R279 to R281: the three position queries return `steps_to_mm` of their axis and write nothing else. -/
def Obligations.PositionQueriesReturnMillimetres : Prop :=
  ∀ s : State, s.busy = false → s.homing = none →
    (∃ r, r = Result.f64 (stepsToMm s.position.x s.cfg.stepsPerMm.x.num s.cfg.stepsPerMm.x.den) ∧
      exec .getPositionX s = .next { s with resultPort := some r, trace := s.trace ++ [.result r] }) ∧
    (∃ r, r = Result.f64 (stepsToMm s.position.y s.cfg.stepsPerMm.y.num s.cfg.stepsPerMm.y.den) ∧
      exec .getPositionY s = .next { s with resultPort := some r, trace := s.trace ++ [.result r] }) ∧
    (∃ r, r = Result.f64 (stepsToMm s.position.z s.cfg.stepsPerMm.z.num s.cfg.stepsPerMm.z.den) ∧
      exec .getPositionZ s = .next { s with resultPort := some r, trace := s.trace ++ [.result r] })

/-- R283: `steps_to_mm` is "the nearest binary64" of `p / k`: no finite binary64 is closer, and the result is finite
whenever the quotient is below 2^1023. -/
def Obligations.StepsToMmIsTheNearestDouble : Prop :=
  ∀ (p : Int) (kNum kDen : Nat), 0 < kNum → 0 < kDen →
    (p.natAbs * kDen ≤ kNum * 2 ^ 1023 → f64Finite (stepsToMm p kNum kDen) = true) ∧
    (f64Finite (stepsToMm p kNum kDen) = true → ∀ w : F64, f64Finite w = true →
      |f64Value (stepsToMm p kNum kDen) - (p : ℚ) / ((kNum : ℚ) / kDen)| ≤
        |f64Value w - (p : ℚ) / ((kNum : ℚ) / kDen)|)

/-- R282, R283: `set_position` writes the three positions, each the exact product `v * k` rounded half away from zero,
and nothing else. That it writes a result outside `i32` too, where R282 says that it is refused (U5 allows unbounded
integers), is the model's choice (log 11). -/
def Obligations.SetPositionRoundsHalfAway : Prop :=
  ∀ (x y z : F64) (s : State), s.cfg.Valid → s.busy = false → s.homing = none →
    f64Finite x = true → f64Finite y = true → f64Finite z = true →
    exec (.setPosition x y z) s = .next
      { s with position :=
          ⟨roundHalfAway (f64Value x * stepsPerMmValue s.cfg .x), roundHalfAway (f64Value y * stepsPerMmValue s.cfg .y),
            roundHalfAway (f64Value z * stepsPerMmValue s.cfg .z)⟩ }

/-- R284: the round trip in exact arithmetic, both ways: the step count `mm_to_steps` gives for the exact value of a finite
`f64` is, in millimetres, within half a step of it, and a value that is exactly `p` steps gives `p` back. -/
def Obligations.PositionRoundTripWithinHalfAStep : Prop :=
  ∀ (v : F64) (kNum kDen : Nat), 0 < kNum → 0 < kDen → f64Finite v = true →
    |(mmToSteps v kNum kDen : ℚ) / ((kNum : ℚ) / kDen) - f64Value v| ≤ 1 / (2 * ((kNum : ℚ) / kDen)) ∧
    ∀ p : Int, f64Value v = (p : ℚ) / ((kNum : ℚ) / kDen) → mmToSteps v kNum kDen = p

/-! ### Homing -/

/-- R256, R258, R264: `homing_cycle()` starts the approach pass over all three axes; with `processing_flag = 1` it is
refused. That the event of the call itself writes the direction pins and the locals of the pass is the model's choice
(log 18): the spec does not say to which event the start of a pass belongs. -/
def Obligations.HomingCycleStartsTheApproachPass : Prop :=
  ∀ s : State, s.busy = false → s.homing = none →
    (s.processingFlag = false → exec .homingCycle s = .next
      { s with
        homing := some ⟨false, 0b111#3, ⟨6, 6, 6⟩, s.now⟩
        dirPin := s.cfg.homingDir ^^^ dirPart s.cfg.invertMask
        trace := s.trace ++ [.dirPin (s.cfg.homingDir ^^^ dirPart s.cfg.invertMask)] }) ∧
    (s.processingFlag = true → exec .homingCycle s = .refused .homingWhileProcessing)

/-- R259, R256, R258, R262, R263: one homing iteration, axis by axis; the position does not change, but is reset to zero
when the retract pass ends. That the iteration which finds no axis left also starts the retract pass, or zeroes the
position, is the model's choice (log 18), and so is the rounding of its wait (log 24). -/
def Obligations.HomingIterationFollowsItsRule : Prop :=
  ∀ (s : State) (rest : List Event) (h : Homing),
    s.cfg.Valid → s.initialised = true → s.agenda = .homingIter :: rest → s.homing = some h →
    let seen : Axis → Prop := fun a => h.active.getLsbD a.index = true ∧
      (readLimitBits s.sense).getLsbD (s.cfg.homingLimitBit.get a) = !h.reverse
    let stays : Axis → Prop := fun a => h.active.getLsbD a.index = true ∧ ¬(seen a ∧ h.allowance.get a = 0)
    ∃ t, step s = .next t ∧
      ((∃ a, stays a) → ∃ h', t.homing = some h' ∧ h'.reverse = h.reverse ∧
        (∀ a, (h'.active.getLsbD a.index = true ↔ stays a) ∧
          (seen a → h'.allowance.get a = h.allowance.get a - 1) ∧
          (¬seen a → h'.allowance.get a = h.allowance.get a)) ∧
        h'.resumeAt = t.now + (pulseCycles s.cfg + homingWaitCycles s.cfg) ∧
        t = { s with
          agenda := rest, now := max s.now h.resumeAt, homing := some h', stepPin := stepPart s.cfg.invertMask
          trace := s.trace ++
            [.stepPin (h'.active ^^^ stepPart s.cfg.invertMask), .stepPin (stepPart s.cfg.invertMask)] }) ∧
      ((¬∃ a, stays a) → h.reverse = false →
        t = { s with
          agenda := rest, now := max s.now h.resumeAt
          homing := some ⟨true, 0b111#3, ⟨6, 6, 6⟩, max s.now h.resumeAt⟩
          dirPin := ~~~s.cfg.homingDir ^^^ dirPart s.cfg.invertMask
          trace := s.trace ++ [.dirPin (~~~s.cfg.homingDir ^^^ dirPart s.cfg.invertMask)] }) ∧
      ((¬∃ a, stays a) → h.reverse = true →
        t = { s with agenda := rest, now := max s.now h.resumeAt, homing := none, position := ⟨0, 0, 0⟩ })

/-- R260: an axis whose end-stop is first seen asserted at an iteration, and stays asserted, is pulsed on `step_pin` in that
iteration and the five after it, and is masked out in the seventh, which emits no pulse on it. The other inputs, and
whatever else the environment changes, may vary between the iterations. -/
def Obligations.HomingOvershootIsSixPulses : Prop :=
  ∀ (s t : Nat → State) (h : Nat → Homing) (rest : Nat → List Event) (a : Axis),
    (s 0).cfg.Valid →
    (∀ n, n < 7 → (s n).initialised = true ∧ (s n).agenda = .homingIter :: rest n ∧ (s n).homing = some (h n) ∧
      step (s n) = .next (t n)) →
    (∀ n, n < 6 → (s (n + 1)).homing = (t n).homing ∧ (s (n + 1)).cfg = (t n).cfg) →
    (h 0).active.getLsbD a.index = true → (h 0).allowance.get a = 6 →
    (∀ n, n < 7 → (readLimitBits (s n).sense).getLsbD ((s 0).cfg.homingLimitBit.get a) = !(h 0).reverse) →
    let idle := stepPart (s 0).cfg.invertMask
    (∀ n, n < 6 → ∃ v, newTrace (s n) (t n) = [.stepPin v, .stepPin idle] ∧
      v.getLsbD a.index = !idle.getLsbD a.index) ∧
    (∀ v, Obs.stepPin v ∈ newTrace (s 6) (t 6) → v.getLsbD a.index = idle.getLsbD a.index) ∧
    (∀ h', (t 6).homing = some h' → h'.reverse = (h 0).reverse → h'.active.getLsbD a.index = false)

/-! ### Reset -/

/-- R340, R341: `init()` writes the registers of its rule, strobes nothing, and leaves the queue and the raster stream as
they are. That the registers R54 calls unspecified keep their values is the model's choice (log 1). Under a
`MINIMUM_STEPS_PER_MINUTE` for which the step timer has no period it is refused (R136, U3; log 8). -/
def Obligations.InitWritesTheResetTable : Prop :=
  ∀ s : State, s.busy = false → s.homing = none →
    let c := 60 * s.cfg.fCpu / s.cfg.minimumStepsPerMinute
    (¬HasPeriod s.cfg s.cfg.minimumStepsPerMinute → exec .init s = .refused .zeroTimerPeriod) ∧
    (HasPeriod s.cfg s.cfg.minimumStepsPerMinute → exec .init s = .next
      { s with
        stepPrescaler := (selectPrescaler c).1, stepCeiling := (selectPrescaler c).2
        cyclesPerStepEvent := (selectPrescaler c).1.value * (selectPrescaler c).2.toNat
        pulseArmed := false, beamArmed := false, position := ⟨0, 0, 0⟩, processingFlag := false
        stopRequested := false, stopStatus := .ok, busy := false, currentBlock := none, pwmCounter := 1
        laserDuty := 0, laserPin := false, outBits := s.cfg.invertMask, dirPin := s.cfg.invertMask.extractLsb' 3 3
        stepPin := s.cfg.invertMask.extractLsb' 0 3, airAssist := false, aux1Assist := false, aux2Assist := false
        now := 0, stepLastFire := 0, pulseDeadline := 0, beamDeadline := 0, initialised := true
        trace := s.trace ++
          [.stepTimer (selectPrescaler c).1 (selectPrescaler c).2, .laserDuty 0, .laserPin false,
            .dirPin (s.cfg.invertMask.extractLsb' 3 3), .stepPin (s.cfg.invertMask.extractLsb' 0 3),
            .airAssist false, .aux1Assist false, .aux2Assist false] })

/-- R340's example with the example parameters of R8, which `State.reset` carries (the model's choice, log 2). -/
def Obligations.ResetStateOfTheExampleParameters : Prop :=
  State.reset.stepPrescaler = .div64 ∧ State.reset.stepCeiling = 12500 ∧ State.reset.cyclesPerStepEvent = 800000 ∧
    State.reset.processingFlag = false ∧ State.reset.stopRequested = false ∧ State.reset.stopStatus = .ok ∧
    State.reset.position = ⟨0, 0, 0⟩ ∧ State.reset.currentBlock = none ∧ State.reset.busy = false ∧
    State.reset.pwmCounter = 1 ∧ State.reset.laserDuty = 0 ∧ State.reset.stepPin = 0 ∧ State.reset.dirPin = 0 ∧
    State.reset.laserPin = false ∧ State.reset.airAssist = false ∧ State.reset.aux1Assist = false ∧
    State.reset.aux2Assist = false ∧ State.reset.queue = []

/-! ### Invariants and rules over every event -/

/-- R25, R35, R34, R264, R21, R83, R113, R197, and R23, R24, R28 with U11: every step keeps the invariant. -/
def Obligations.StepKeepsTheInvariant : Prop :=
  ∀ s t : State, Invariant s → step s = .next t → Invariant t

/-- The state after `init()` has the invariant, under every valid configuration. -/
def Obligations.ResetHasTheInvariant : Prop :=
  (∀ c : Config, c.Valid → Invariant (State.initial c)) ∧ Invariant State.reset

/-- R165, R178: every step keeps the registers of a well-formed motion block in their ranges. -/
def Obligations.StepKeepsMotionInRange : Prop :=
  ∀ s t : State, MotionInRange s → step s = .next t → MotionInRange t

/-- The state after `init()` has no block current, so its registers are in their ranges. -/
def Obligations.ResetHasMotionInRange : Prop :=
  (∀ c : Config, MotionInRange (State.initial c)) ∧ MotionInRange State.reset

/-- R320: "It leaves idle only by `start_processing()`", whatever event occurs. -/
def Obligations.OnlyStartProcessingLeavesIdle : Prop :=
  ∀ s t : State, step s = .next t → s.processingFlag = false → t.processingFlag = true →
    ∃ rest, s.agenda = .hostOp [0x01] :: rest

/-- R219, R308, R340: a pending stop is cleared by nothing but `stop_resume()` and `init()`. -/
def Obligations.OnlyResumeOrInitClearsAStop : Prop :=
  ∀ s t : State, step s = .next t → s.stopRequested = true → t.stopRequested = false →
    ∃ rest, s.agenda = .hostOp [0x07] :: rest ∨ s.agenda = .hostOp [0x00] :: rest

/-- R29, R92, R365: a step changes the position by one unit per emitted pulse and at most one pulse per axis, unless it
is an `init()` or a `set_position` that occurs, or the end of a homing cycle; none of these emits a pulse. -/
def Obligations.PositionFollowsThePulses : Prop :=
  ∀ s t : State, step s = .next t →
    (∀ a : Axis,
      (t.pulses.get a = s.pulses.get a ∧ t.position.get a = s.position.get a) ∨
      (t.pulses.get a = s.pulses.get a + 1 ∧
        (t.position.get a = s.position.get a + 1 ∨ t.position.get a = s.position.get a - 1))) ∨
    (t.pulses = s.pulses ∧ ∃ bytes rest, s.agenda = .hostOp bytes :: rest ∧
      ((decode .hostPort bytes = .ok .init ∧ (s.initialised = true → s.busy = false ∧ s.homing = none) ∧
          t.position = ⟨0, 0, 0⟩) ∨
        ∃ x y z, decode .hostPort bytes = .ok (.setPosition x y z) ∧ s.initialised = true ∧ s.busy = false ∧
          s.homing = none ∧
          t.position =
            ⟨mmToSteps x s.cfg.stepsPerMm.x.num s.cfg.stepsPerMm.x.den,
              mmToSteps y s.cfg.stepsPerMm.y.num s.cfg.stepsPerMm.y.den,
              mmToSteps z s.cfg.stepsPerMm.z.num s.cfg.stepsPerMm.z.den⟩)) ∨
    (t.pulses = s.pulses ∧ ∃ h, s.homing = some h ∧ h.reverse = true ∧ t.homing = none ∧ t.position = ⟨0, 0, 0⟩)

/-- R8, R47: no event changes the parameters, and none but a change by the environment the sense inputs. -/
def Obligations.ParametersAndInputsAreNotWritten : Prop :=
  ∀ s t : State, step s = .next t →
    t.cfg = s.cfg ∧ (t.sense = s.sense ∨ ∃ sense rest, s.agenda = .senseChange sense :: rest ∧ t.sense = sense)

/-- R43, R191, R192, R220: the laser pin rises only in an invocation of an armed step timer that is due a laser pulse,
with a non-zero intensity, no interlock input and no limit input asserted and no stop pending. -/
def Obligations.LaserPinRisesOnlyInALaserPulse : Prop :=
  ∀ s t : State, step s = .next t → s.laserPin = false → t.laserPin = true →
    s.processingFlag = true ∧ s.homing = none ∧ s.busy = false ∧ s.stopRequested = false ∧ limitHit s = none ∧
      interlockOpen s = false ∧ s.laserDuty ≠ 0 ∧ s.cfg.beamEvery ≤ s.pwmCounter ∧ Obs.laserPin true ∈ newTrace s t
end

