-- ==== Sys2Proof/Laws/Decode.lean ====
section
/-! SUPPORT. The byte order of the two formats (R79): what is written byte by byte is read back whole, and what is
read whole is written back byte by byte. -/

namespace Sys2Proof

/-- The four bytes of a `u32` put together again. -/
theorem u32_of_bytes (v : U32) :
    v.extractLsb' 24 8 ++ v.extractLsb' 16 8 ++ v.extractLsb' 8 8 ++ v.extractLsb' 0 8 = v := by
  apply BitVec.eq_of_getLsbD_eq
  intro i hi
  simp only [BitVec.getLsbD_append, BitVec.getLsbD_extractLsb']
  by_cases h0 : i < 8
  · simp [h0]
  by_cases h1 : i < 16
  · have e : 8 + (i - 8) = i := by omega
    simp [h0, show i - 8 < 8 by omega, e]
  by_cases h2 : i < 24
  · have e : 16 + (i - 8 - 8) = i := by omega
    simp [h0, show ¬i - 8 < 8 by omega, show i - 8 - 8 < 8 by omega, e]
  · have e : 24 + (i - 8 - 8 - 8) = i := by omega
    simp [h0, show ¬i - 8 < 8 by omega, show ¬i - 8 - 8 < 8 by omega, show i - 8 - 8 - 8 < 8 by omega, e]

/-- The two halves of an `f64` put together again. -/
theorem f64_of_halves (v : F64) : v.extractLsb' 32 32 ++ v.extractLsb' 0 32 = v := by
  apply BitVec.eq_of_getLsbD_eq
  intro i hi
  simp only [BitVec.getLsbD_append, BitVec.getLsbD_extractLsb']
  by_cases h0 : i < 32
  · simp [h0]
  · have e : 32 + (i - 32) = i := by omega
    simp [h0, show i - 32 < 32 by omega, e]

/-- The bytes of an assembled `u32` are the bytes it was assembled from. -/
theorem u32Bytes_of_append (b3 b2 b1 b0 : Byte) : u32Bytes (b3 ++ b2 ++ b1 ++ b0) = [b0, b1, b2, b3] := by
  simp only [u32Bytes, List.cons.injEq, and_true]
  refine ⟨?_, ?_, ?_, ?_⟩ <;>
    (apply BitVec.eq_of_getLsbD_eq
     intro i hi
     simp only [BitVec.getLsbD_extractLsb', BitVec.getLsbD_append, hi])
  · simp [hi]
  · rw [if_neg (show ¬8 + i < 8 by omega), if_pos (show 8 + i - 8 < 8 by omega), Nat.add_sub_cancel_left]
    rfl
  · rw [if_neg (show ¬16 + i < 8 by omega), if_neg (show ¬16 + i - 8 < 8 by omega),
      if_pos (show 16 + i - 8 - 8 < 8 by omega), show 16 + i - 8 - 8 = i by omega]
    rfl
  · rw [if_neg (show ¬24 + i < 8 by omega), if_neg (show ¬24 + i - 8 < 8 by omega),
      if_neg (show ¬24 + i - 8 - 8 < 8 by omega), show 24 + i - 8 - 8 - 8 = i by omega]
    rfl

/-- The bytes of the `u32` at an offset are the four bytes there. -/
theorem u32Bytes_u32At (bs : List Byte) (o : Nat) :
    u32Bytes (u32At bs o) = [byteAt bs o, byteAt bs (o + 1), byteAt bs (o + 2), byteAt bs (o + 3)] :=
  u32Bytes_of_append _ _ _ _

/-- The two halves of the `f64` at an offset are the `u32`s there. -/
theorem f64Bytes_f64At (bs : List Byte) (o : Nat) :
    f64Bytes (f64At bs o) = u32Bytes (u32At bs o) ++ u32Bytes (u32At bs (o + 4)) := by
  have halves : ∀ h l : U32,
      (h ++ l : F64).extractLsb' 0 32 = l ∧ (h ++ l : F64).extractLsb' 32 32 = h := by
    intro h l
    constructor <;>
      (apply BitVec.eq_of_getLsbD_eq
       intro i hi
       simp only [BitVec.getLsbD_extractLsb', BitVec.getLsbD_append])
    · simp [hi]
    · simp [show ¬32 + i < 32 by omega, hi]
  rw [f64Bytes, f64At, (halves _ _).1, (halves _ _).2]

/-- Reading at an offset past the first byte reads the rest of the list. -/
@[simp] theorem byteAt_cons_succ (b : Byte) (bs : List Byte) (o : Nat) : byteAt (b :: bs) (o + 1) = byteAt bs o := rfl

/-- Reading at offset 0 reads the first byte. -/
@[simp] theorem byteAt_cons_zero (b : Byte) (bs : List Byte) : byteAt (b :: bs) 0 = b := rfl

/-- Every stop status is read back from its code (R106). -/
@[simp] theorem ofCode_code (kind : StopStatus) : StopStatus.ofCode kind.code = some kind := by cases kind <;> rfl

/-- A status read from a code has that code (R106). -/
theorem code_of_ofCode {c : Byte} {kind : StopStatus} (h : StopStatus.ofCode c = some kind) : kind.code = c := by
  have key : ∀ n : Nat, c.toNat = n → c = BitVec.ofNat 8 n := by
    intro n hn
    exact BitVec.eq_of_toNat_eq (by rw [hn, BitVec.toNat_ofNat]; omega)
  unfold StopStatus.ofCode at h
  split at h <;> rename_i hc <;> cases h <;> exact (key _ hc).symm

end Sys2Proof
end

