-- ==== Sys2Proof/Laws/State.lean ====
section
/-! SUPPORT. The simp set over `State`: for each update of Machine/Ops.lean what every field is after it, one equation a
field, all true by `rfl`. (simp reads a conjunction of equations as its conjuncts.) With it no later proof unfolds a
record update. -/

namespace Sys2Proof.Machine

@[simp] theorem emit_fields (o : Obs) (s : State) :
    (emit o s).cfg = s.cfg ∧ (emit o s).currentBlock = s.currentBlock ∧ (emit o s).counter = s.counter ∧
    (emit o s).stepEventsCompleted = s.stepEventsCompleted ∧ (emit o s).adjustedRate = s.adjustedRate ∧
    (emit o s).cyclesPerStepEvent = s.cyclesPerStepEvent ∧ (emit o s).accCounter = s.accCounter ∧
    (emit o s).outBits = s.outBits ∧ (emit o s).pixelCounter = s.pixelCounter ∧ (emit o s).position = s.position ∧
    (emit o s).processingFlag = s.processingFlag ∧ (emit o s).stopRequested = s.stopRequested ∧
    (emit o s).stopStatus = s.stopStatus ∧ (emit o s).busy = s.busy ∧ (emit o s).pwmCounter = s.pwmCounter ∧
    (emit o s).laserDuty = s.laserDuty ∧ (emit o s).stepPrescaler = s.stepPrescaler ∧
    (emit o s).stepCeiling = s.stepCeiling ∧ (emit o s).pulseArmed = s.pulseArmed ∧
    (emit o s).beamArmed = s.beamArmed ∧ (emit o s).beamPrescaler = s.beamPrescaler ∧
    (emit o s).beamCeiling = s.beamCeiling ∧ (emit o s).now = s.now ∧ (emit o s).stepLastFire = s.stepLastFire ∧
    (emit o s).pulseDeadline = s.pulseDeadline ∧ (emit o s).beamDeadline = s.beamDeadline ∧
    (emit o s).dirPin = s.dirPin ∧ (emit o s).stepPin = s.stepPin ∧ (emit o s).laserPin = s.laserPin ∧
    (emit o s).airAssist = s.airAssist ∧ (emit o s).aux1Assist = s.aux1Assist ∧
    (emit o s).aux2Assist = s.aux2Assist ∧ (emit o s).sense = s.sense ∧ (emit o s).queue = s.queue ∧
    (emit o s).raster = s.raster ∧ (emit o s).homing = s.homing ∧ (emit o s).trace = s.trace ++ [o] ∧
    (emit o s).pulses = s.pulses ∧ (emit o s).resultPort = s.resultPort ∧ (emit o s).initialised = s.initialised ∧
    (emit o s).agenda = s.agenda ∧ (emit o s).freeDraws = s.freeDraws :=
  ⟨rfl, rfl, rfl, rfl, rfl, rfl, rfl, rfl, rfl, rfl, rfl, rfl, rfl, rfl, rfl, rfl, rfl, rfl, rfl, rfl, rfl, rfl,
    rfl, rfl, rfl, rfl, rfl, rfl, rfl, rfl, rfl, rfl, rfl, rfl, rfl, rfl, rfl, rfl, rfl, rfl, rfl, rfl⟩

@[simp] theorem setDirPin_fields (v : Axes3) (s : State) :
    (setDirPin v s).cfg = s.cfg ∧ (setDirPin v s).currentBlock = s.currentBlock ∧
    (setDirPin v s).counter = s.counter ∧ (setDirPin v s).stepEventsCompleted = s.stepEventsCompleted ∧
    (setDirPin v s).adjustedRate = s.adjustedRate ∧ (setDirPin v s).cyclesPerStepEvent = s.cyclesPerStepEvent ∧
    (setDirPin v s).accCounter = s.accCounter ∧ (setDirPin v s).outBits = s.outBits ∧
    (setDirPin v s).pixelCounter = s.pixelCounter ∧ (setDirPin v s).position = s.position ∧
    (setDirPin v s).processingFlag = s.processingFlag ∧ (setDirPin v s).stopRequested = s.stopRequested ∧
    (setDirPin v s).stopStatus = s.stopStatus ∧ (setDirPin v s).busy = s.busy ∧
    (setDirPin v s).pwmCounter = s.pwmCounter ∧ (setDirPin v s).laserDuty = s.laserDuty ∧
    (setDirPin v s).stepPrescaler = s.stepPrescaler ∧ (setDirPin v s).stepCeiling = s.stepCeiling ∧
    (setDirPin v s).pulseArmed = s.pulseArmed ∧ (setDirPin v s).beamArmed = s.beamArmed ∧
    (setDirPin v s).beamPrescaler = s.beamPrescaler ∧ (setDirPin v s).beamCeiling = s.beamCeiling ∧
    (setDirPin v s).now = s.now ∧ (setDirPin v s).stepLastFire = s.stepLastFire ∧
    (setDirPin v s).pulseDeadline = s.pulseDeadline ∧ (setDirPin v s).beamDeadline = s.beamDeadline ∧
    (setDirPin v s).dirPin = v ∧ (setDirPin v s).stepPin = s.stepPin ∧ (setDirPin v s).laserPin = s.laserPin ∧
    (setDirPin v s).airAssist = s.airAssist ∧ (setDirPin v s).aux1Assist = s.aux1Assist ∧
    (setDirPin v s).aux2Assist = s.aux2Assist ∧ (setDirPin v s).sense = s.sense ∧ (setDirPin v s).queue = s.queue ∧
    (setDirPin v s).raster = s.raster ∧ (setDirPin v s).homing = s.homing ∧
    (setDirPin v s).trace = s.trace ++ [.dirPin v] ∧ (setDirPin v s).pulses = s.pulses ∧
    (setDirPin v s).resultPort = s.resultPort ∧ (setDirPin v s).initialised = s.initialised ∧
    (setDirPin v s).agenda = s.agenda ∧ (setDirPin v s).freeDraws = s.freeDraws :=
  ⟨rfl, rfl, rfl, rfl, rfl, rfl, rfl, rfl, rfl, rfl, rfl, rfl, rfl, rfl, rfl, rfl, rfl, rfl, rfl, rfl, rfl, rfl,
    rfl, rfl, rfl, rfl, rfl, rfl, rfl, rfl, rfl, rfl, rfl, rfl, rfl, rfl, rfl, rfl, rfl, rfl, rfl, rfl⟩

@[simp] theorem setStepPin_fields (v : Axes3) (s : State) :
    (setStepPin v s).cfg = s.cfg ∧ (setStepPin v s).currentBlock = s.currentBlock ∧
    (setStepPin v s).counter = s.counter ∧ (setStepPin v s).stepEventsCompleted = s.stepEventsCompleted ∧
    (setStepPin v s).adjustedRate = s.adjustedRate ∧ (setStepPin v s).cyclesPerStepEvent = s.cyclesPerStepEvent ∧
    (setStepPin v s).accCounter = s.accCounter ∧ (setStepPin v s).outBits = s.outBits ∧
    (setStepPin v s).pixelCounter = s.pixelCounter ∧ (setStepPin v s).position = s.position ∧
    (setStepPin v s).processingFlag = s.processingFlag ∧ (setStepPin v s).stopRequested = s.stopRequested ∧
    (setStepPin v s).stopStatus = s.stopStatus ∧ (setStepPin v s).busy = s.busy ∧
    (setStepPin v s).pwmCounter = s.pwmCounter ∧ (setStepPin v s).laserDuty = s.laserDuty ∧
    (setStepPin v s).stepPrescaler = s.stepPrescaler ∧ (setStepPin v s).stepCeiling = s.stepCeiling ∧
    (setStepPin v s).pulseArmed = s.pulseArmed ∧ (setStepPin v s).beamArmed = s.beamArmed ∧
    (setStepPin v s).beamPrescaler = s.beamPrescaler ∧ (setStepPin v s).beamCeiling = s.beamCeiling ∧
    (setStepPin v s).now = s.now ∧ (setStepPin v s).stepLastFire = s.stepLastFire ∧
    (setStepPin v s).pulseDeadline = s.pulseDeadline ∧ (setStepPin v s).beamDeadline = s.beamDeadline ∧
    (setStepPin v s).dirPin = s.dirPin ∧ (setStepPin v s).stepPin = v ∧ (setStepPin v s).laserPin = s.laserPin ∧
    (setStepPin v s).airAssist = s.airAssist ∧ (setStepPin v s).aux1Assist = s.aux1Assist ∧
    (setStepPin v s).aux2Assist = s.aux2Assist ∧ (setStepPin v s).sense = s.sense ∧
    (setStepPin v s).queue = s.queue ∧ (setStepPin v s).raster = s.raster ∧ (setStepPin v s).homing = s.homing ∧
    (setStepPin v s).trace = s.trace ++ [.stepPin v] ∧ (setStepPin v s).pulses = s.pulses ∧
    (setStepPin v s).resultPort = s.resultPort ∧ (setStepPin v s).initialised = s.initialised ∧
    (setStepPin v s).agenda = s.agenda ∧ (setStepPin v s).freeDraws = s.freeDraws :=
  ⟨rfl, rfl, rfl, rfl, rfl, rfl, rfl, rfl, rfl, rfl, rfl, rfl, rfl, rfl, rfl, rfl, rfl, rfl, rfl, rfl, rfl, rfl,
    rfl, rfl, rfl, rfl, rfl, rfl, rfl, rfl, rfl, rfl, rfl, rfl, rfl, rfl, rfl, rfl, rfl, rfl, rfl, rfl⟩

@[simp] theorem setLaserPin_fields (v : Bool) (s : State) :
    (setLaserPin v s).cfg = s.cfg ∧ (setLaserPin v s).currentBlock = s.currentBlock ∧
    (setLaserPin v s).counter = s.counter ∧ (setLaserPin v s).stepEventsCompleted = s.stepEventsCompleted ∧
    (setLaserPin v s).adjustedRate = s.adjustedRate ∧ (setLaserPin v s).cyclesPerStepEvent = s.cyclesPerStepEvent ∧
    (setLaserPin v s).accCounter = s.accCounter ∧ (setLaserPin v s).outBits = s.outBits ∧
    (setLaserPin v s).pixelCounter = s.pixelCounter ∧ (setLaserPin v s).position = s.position ∧
    (setLaserPin v s).processingFlag = s.processingFlag ∧ (setLaserPin v s).stopRequested = s.stopRequested ∧
    (setLaserPin v s).stopStatus = s.stopStatus ∧ (setLaserPin v s).busy = s.busy ∧
    (setLaserPin v s).pwmCounter = s.pwmCounter ∧ (setLaserPin v s).laserDuty = s.laserDuty ∧
    (setLaserPin v s).stepPrescaler = s.stepPrescaler ∧ (setLaserPin v s).stepCeiling = s.stepCeiling ∧
    (setLaserPin v s).pulseArmed = s.pulseArmed ∧ (setLaserPin v s).beamArmed = s.beamArmed ∧
    (setLaserPin v s).beamPrescaler = s.beamPrescaler ∧ (setLaserPin v s).beamCeiling = s.beamCeiling ∧
    (setLaserPin v s).now = s.now ∧ (setLaserPin v s).stepLastFire = s.stepLastFire ∧
    (setLaserPin v s).pulseDeadline = s.pulseDeadline ∧ (setLaserPin v s).beamDeadline = s.beamDeadline ∧
    (setLaserPin v s).dirPin = s.dirPin ∧ (setLaserPin v s).stepPin = s.stepPin ∧ (setLaserPin v s).laserPin = v ∧
    (setLaserPin v s).airAssist = s.airAssist ∧ (setLaserPin v s).aux1Assist = s.aux1Assist ∧
    (setLaserPin v s).aux2Assist = s.aux2Assist ∧ (setLaserPin v s).sense = s.sense ∧
    (setLaserPin v s).queue = s.queue ∧ (setLaserPin v s).raster = s.raster ∧ (setLaserPin v s).homing = s.homing ∧
    (setLaserPin v s).trace = s.trace ++ [.laserPin v] ∧ (setLaserPin v s).pulses = s.pulses ∧
    (setLaserPin v s).resultPort = s.resultPort ∧ (setLaserPin v s).initialised = s.initialised ∧
    (setLaserPin v s).agenda = s.agenda ∧ (setLaserPin v s).freeDraws = s.freeDraws :=
  ⟨rfl, rfl, rfl, rfl, rfl, rfl, rfl, rfl, rfl, rfl, rfl, rfl, rfl, rfl, rfl, rfl, rfl, rfl, rfl, rfl, rfl, rfl,
    rfl, rfl, rfl, rfl, rfl, rfl, rfl, rfl, rfl, rfl, rfl, rfl, rfl, rfl, rfl, rfl, rfl, rfl, rfl, rfl⟩

@[simp] theorem controlLaserIntensity_fields (v : Byte) (s : State) :
    (controlLaserIntensity v s).cfg = s.cfg ∧ (controlLaserIntensity v s).currentBlock = s.currentBlock ∧
    (controlLaserIntensity v s).counter = s.counter ∧
    (controlLaserIntensity v s).stepEventsCompleted = s.stepEventsCompleted ∧
    (controlLaserIntensity v s).adjustedRate = s.adjustedRate ∧
    (controlLaserIntensity v s).cyclesPerStepEvent = s.cyclesPerStepEvent ∧
    (controlLaserIntensity v s).accCounter = s.accCounter ∧ (controlLaserIntensity v s).outBits = s.outBits ∧
    (controlLaserIntensity v s).pixelCounter = s.pixelCounter ∧ (controlLaserIntensity v s).position = s.position ∧
    (controlLaserIntensity v s).processingFlag = s.processingFlag ∧
    (controlLaserIntensity v s).stopRequested = s.stopRequested ∧
    (controlLaserIntensity v s).stopStatus = s.stopStatus ∧ (controlLaserIntensity v s).busy = s.busy ∧
    (controlLaserIntensity v s).pwmCounter = s.pwmCounter ∧ (controlLaserIntensity v s).laserDuty = v ∧
    (controlLaserIntensity v s).stepPrescaler = s.stepPrescaler ∧
    (controlLaserIntensity v s).stepCeiling = s.stepCeiling ∧ (controlLaserIntensity v s).pulseArmed = s.pulseArmed ∧
    (controlLaserIntensity v s).beamArmed = s.beamArmed ∧
    (controlLaserIntensity v s).beamPrescaler = s.beamPrescaler ∧
    (controlLaserIntensity v s).beamCeiling = s.beamCeiling ∧ (controlLaserIntensity v s).now = s.now ∧
    (controlLaserIntensity v s).stepLastFire = s.stepLastFire ∧
    (controlLaserIntensity v s).pulseDeadline = s.pulseDeadline ∧
    (controlLaserIntensity v s).beamDeadline = s.beamDeadline ∧ (controlLaserIntensity v s).dirPin = s.dirPin ∧
    (controlLaserIntensity v s).stepPin = s.stepPin ∧ (controlLaserIntensity v s).laserPin = s.laserPin ∧
    (controlLaserIntensity v s).airAssist = s.airAssist ∧ (controlLaserIntensity v s).aux1Assist = s.aux1Assist ∧
    (controlLaserIntensity v s).aux2Assist = s.aux2Assist ∧ (controlLaserIntensity v s).sense = s.sense ∧
    (controlLaserIntensity v s).queue = s.queue ∧ (controlLaserIntensity v s).raster = s.raster ∧
    (controlLaserIntensity v s).homing = s.homing ∧ (controlLaserIntensity v s).trace = s.trace ++ [.laserDuty v] ∧
    (controlLaserIntensity v s).pulses = s.pulses ∧ (controlLaserIntensity v s).resultPort = s.resultPort ∧
    (controlLaserIntensity v s).initialised = s.initialised ∧ (controlLaserIntensity v s).agenda = s.agenda ∧
    (controlLaserIntensity v s).freeDraws = s.freeDraws :=
  ⟨rfl, rfl, rfl, rfl, rfl, rfl, rfl, rfl, rfl, rfl, rfl, rfl, rfl, rfl, rfl, rfl, rfl, rfl, rfl, rfl, rfl, rfl,
    rfl, rfl, rfl, rfl, rfl, rfl, rfl, rfl, rfl, rfl, rfl, rfl, rfl, rfl, rfl, rfl, rfl, rfl, rfl, rfl⟩

@[simp] theorem controlAirAssist_fields (v : Bool) (s : State) :
    (controlAirAssist v s).cfg = s.cfg ∧ (controlAirAssist v s).currentBlock = s.currentBlock ∧
    (controlAirAssist v s).counter = s.counter ∧ (controlAirAssist v s).stepEventsCompleted = s.stepEventsCompleted ∧
    (controlAirAssist v s).adjustedRate = s.adjustedRate ∧
    (controlAirAssist v s).cyclesPerStepEvent = s.cyclesPerStepEvent ∧
    (controlAirAssist v s).accCounter = s.accCounter ∧ (controlAirAssist v s).outBits = s.outBits ∧
    (controlAirAssist v s).pixelCounter = s.pixelCounter ∧ (controlAirAssist v s).position = s.position ∧
    (controlAirAssist v s).processingFlag = s.processingFlag ∧
    (controlAirAssist v s).stopRequested = s.stopRequested ∧ (controlAirAssist v s).stopStatus = s.stopStatus ∧
    (controlAirAssist v s).busy = s.busy ∧ (controlAirAssist v s).pwmCounter = s.pwmCounter ∧
    (controlAirAssist v s).laserDuty = s.laserDuty ∧ (controlAirAssist v s).stepPrescaler = s.stepPrescaler ∧
    (controlAirAssist v s).stepCeiling = s.stepCeiling ∧ (controlAirAssist v s).pulseArmed = s.pulseArmed ∧
    (controlAirAssist v s).beamArmed = s.beamArmed ∧ (controlAirAssist v s).beamPrescaler = s.beamPrescaler ∧
    (controlAirAssist v s).beamCeiling = s.beamCeiling ∧ (controlAirAssist v s).now = s.now ∧
    (controlAirAssist v s).stepLastFire = s.stepLastFire ∧ (controlAirAssist v s).pulseDeadline = s.pulseDeadline ∧
    (controlAirAssist v s).beamDeadline = s.beamDeadline ∧ (controlAirAssist v s).dirPin = s.dirPin ∧
    (controlAirAssist v s).stepPin = s.stepPin ∧ (controlAirAssist v s).laserPin = s.laserPin ∧
    (controlAirAssist v s).airAssist = v ∧ (controlAirAssist v s).aux1Assist = s.aux1Assist ∧
    (controlAirAssist v s).aux2Assist = s.aux2Assist ∧ (controlAirAssist v s).sense = s.sense ∧
    (controlAirAssist v s).queue = s.queue ∧ (controlAirAssist v s).raster = s.raster ∧
    (controlAirAssist v s).homing = s.homing ∧ (controlAirAssist v s).trace = s.trace ++ [.airAssist v] ∧
    (controlAirAssist v s).pulses = s.pulses ∧ (controlAirAssist v s).resultPort = s.resultPort ∧
    (controlAirAssist v s).initialised = s.initialised ∧ (controlAirAssist v s).agenda = s.agenda ∧
    (controlAirAssist v s).freeDraws = s.freeDraws :=
  ⟨rfl, rfl, rfl, rfl, rfl, rfl, rfl, rfl, rfl, rfl, rfl, rfl, rfl, rfl, rfl, rfl, rfl, rfl, rfl, rfl, rfl, rfl,
    rfl, rfl, rfl, rfl, rfl, rfl, rfl, rfl, rfl, rfl, rfl, rfl, rfl, rfl, rfl, rfl, rfl, rfl, rfl, rfl⟩

@[simp] theorem controlAux1Assist_fields (v : Bool) (s : State) :
    (controlAux1Assist v s).cfg = s.cfg ∧ (controlAux1Assist v s).currentBlock = s.currentBlock ∧
    (controlAux1Assist v s).counter = s.counter ∧
    (controlAux1Assist v s).stepEventsCompleted = s.stepEventsCompleted ∧
    (controlAux1Assist v s).adjustedRate = s.adjustedRate ∧
    (controlAux1Assist v s).cyclesPerStepEvent = s.cyclesPerStepEvent ∧
    (controlAux1Assist v s).accCounter = s.accCounter ∧ (controlAux1Assist v s).outBits = s.outBits ∧
    (controlAux1Assist v s).pixelCounter = s.pixelCounter ∧ (controlAux1Assist v s).position = s.position ∧
    (controlAux1Assist v s).processingFlag = s.processingFlag ∧
    (controlAux1Assist v s).stopRequested = s.stopRequested ∧ (controlAux1Assist v s).stopStatus = s.stopStatus ∧
    (controlAux1Assist v s).busy = s.busy ∧ (controlAux1Assist v s).pwmCounter = s.pwmCounter ∧
    (controlAux1Assist v s).laserDuty = s.laserDuty ∧ (controlAux1Assist v s).stepPrescaler = s.stepPrescaler ∧
    (controlAux1Assist v s).stepCeiling = s.stepCeiling ∧ (controlAux1Assist v s).pulseArmed = s.pulseArmed ∧
    (controlAux1Assist v s).beamArmed = s.beamArmed ∧ (controlAux1Assist v s).beamPrescaler = s.beamPrescaler ∧
    (controlAux1Assist v s).beamCeiling = s.beamCeiling ∧ (controlAux1Assist v s).now = s.now ∧
    (controlAux1Assist v s).stepLastFire = s.stepLastFire ∧ (controlAux1Assist v s).pulseDeadline = s.pulseDeadline ∧
    (controlAux1Assist v s).beamDeadline = s.beamDeadline ∧ (controlAux1Assist v s).dirPin = s.dirPin ∧
    (controlAux1Assist v s).stepPin = s.stepPin ∧ (controlAux1Assist v s).laserPin = s.laserPin ∧
    (controlAux1Assist v s).airAssist = s.airAssist ∧ (controlAux1Assist v s).aux1Assist = v ∧
    (controlAux1Assist v s).aux2Assist = s.aux2Assist ∧ (controlAux1Assist v s).sense = s.sense ∧
    (controlAux1Assist v s).queue = s.queue ∧ (controlAux1Assist v s).raster = s.raster ∧
    (controlAux1Assist v s).homing = s.homing ∧ (controlAux1Assist v s).trace = s.trace ++ [.aux1Assist v] ∧
    (controlAux1Assist v s).pulses = s.pulses ∧ (controlAux1Assist v s).resultPort = s.resultPort ∧
    (controlAux1Assist v s).initialised = s.initialised ∧ (controlAux1Assist v s).agenda = s.agenda ∧
    (controlAux1Assist v s).freeDraws = s.freeDraws :=
  ⟨rfl, rfl, rfl, rfl, rfl, rfl, rfl, rfl, rfl, rfl, rfl, rfl, rfl, rfl, rfl, rfl, rfl, rfl, rfl, rfl, rfl, rfl,
    rfl, rfl, rfl, rfl, rfl, rfl, rfl, rfl, rfl, rfl, rfl, rfl, rfl, rfl, rfl, rfl, rfl, rfl, rfl, rfl⟩

@[simp] theorem controlAux2Assist_fields (v : Bool) (s : State) :
    (controlAux2Assist v s).cfg = s.cfg ∧ (controlAux2Assist v s).currentBlock = s.currentBlock ∧
    (controlAux2Assist v s).counter = s.counter ∧
    (controlAux2Assist v s).stepEventsCompleted = s.stepEventsCompleted ∧
    (controlAux2Assist v s).adjustedRate = s.adjustedRate ∧
    (controlAux2Assist v s).cyclesPerStepEvent = s.cyclesPerStepEvent ∧
    (controlAux2Assist v s).accCounter = s.accCounter ∧ (controlAux2Assist v s).outBits = s.outBits ∧
    (controlAux2Assist v s).pixelCounter = s.pixelCounter ∧ (controlAux2Assist v s).position = s.position ∧
    (controlAux2Assist v s).processingFlag = s.processingFlag ∧
    (controlAux2Assist v s).stopRequested = s.stopRequested ∧ (controlAux2Assist v s).stopStatus = s.stopStatus ∧
    (controlAux2Assist v s).busy = s.busy ∧ (controlAux2Assist v s).pwmCounter = s.pwmCounter ∧
    (controlAux2Assist v s).laserDuty = s.laserDuty ∧ (controlAux2Assist v s).stepPrescaler = s.stepPrescaler ∧
    (controlAux2Assist v s).stepCeiling = s.stepCeiling ∧ (controlAux2Assist v s).pulseArmed = s.pulseArmed ∧
    (controlAux2Assist v s).beamArmed = s.beamArmed ∧ (controlAux2Assist v s).beamPrescaler = s.beamPrescaler ∧
    (controlAux2Assist v s).beamCeiling = s.beamCeiling ∧ (controlAux2Assist v s).now = s.now ∧
    (controlAux2Assist v s).stepLastFire = s.stepLastFire ∧ (controlAux2Assist v s).pulseDeadline = s.pulseDeadline ∧
    (controlAux2Assist v s).beamDeadline = s.beamDeadline ∧ (controlAux2Assist v s).dirPin = s.dirPin ∧
    (controlAux2Assist v s).stepPin = s.stepPin ∧ (controlAux2Assist v s).laserPin = s.laserPin ∧
    (controlAux2Assist v s).airAssist = s.airAssist ∧ (controlAux2Assist v s).aux1Assist = s.aux1Assist ∧
    (controlAux2Assist v s).aux2Assist = v ∧ (controlAux2Assist v s).sense = s.sense ∧
    (controlAux2Assist v s).queue = s.queue ∧ (controlAux2Assist v s).raster = s.raster ∧
    (controlAux2Assist v s).homing = s.homing ∧ (controlAux2Assist v s).trace = s.trace ++ [.aux2Assist v] ∧
    (controlAux2Assist v s).pulses = s.pulses ∧ (controlAux2Assist v s).resultPort = s.resultPort ∧
    (controlAux2Assist v s).initialised = s.initialised ∧ (controlAux2Assist v s).agenda = s.agenda ∧
    (controlAux2Assist v s).freeDraws = s.freeDraws :=
  ⟨rfl, rfl, rfl, rfl, rfl, rfl, rfl, rfl, rfl, rfl, rfl, rfl, rfl, rfl, rfl, rfl, rfl, rfl, rfl, rfl, rfl, rfl,
    rfl, rfl, rfl, rfl, rfl, rfl, rfl, rfl, rfl, rfl, rfl, rfl, rfl, rfl, rfl, rfl, rfl, rfl, rfl, rfl⟩

@[simp] theorem plannerDiscard_fields (s : State) :
    (plannerDiscard s).cfg = s.cfg ∧ (plannerDiscard s).currentBlock = s.currentBlock ∧
    (plannerDiscard s).counter = s.counter ∧ (plannerDiscard s).stepEventsCompleted = s.stepEventsCompleted ∧
    (plannerDiscard s).adjustedRate = s.adjustedRate ∧ (plannerDiscard s).cyclesPerStepEvent = s.cyclesPerStepEvent ∧
    (plannerDiscard s).accCounter = s.accCounter ∧ (plannerDiscard s).outBits = s.outBits ∧
    (plannerDiscard s).pixelCounter = s.pixelCounter ∧ (plannerDiscard s).position = s.position ∧
    (plannerDiscard s).processingFlag = s.processingFlag ∧ (plannerDiscard s).stopRequested = s.stopRequested ∧
    (plannerDiscard s).stopStatus = s.stopStatus ∧ (plannerDiscard s).busy = s.busy ∧
    (plannerDiscard s).pwmCounter = s.pwmCounter ∧ (plannerDiscard s).laserDuty = s.laserDuty ∧
    (plannerDiscard s).stepPrescaler = s.stepPrescaler ∧ (plannerDiscard s).stepCeiling = s.stepCeiling ∧
    (plannerDiscard s).pulseArmed = s.pulseArmed ∧ (plannerDiscard s).beamArmed = s.beamArmed ∧
    (plannerDiscard s).beamPrescaler = s.beamPrescaler ∧ (plannerDiscard s).beamCeiling = s.beamCeiling ∧
    (plannerDiscard s).now = s.now ∧ (plannerDiscard s).stepLastFire = s.stepLastFire ∧
    (plannerDiscard s).pulseDeadline = s.pulseDeadline ∧ (plannerDiscard s).beamDeadline = s.beamDeadline ∧
    (plannerDiscard s).dirPin = s.dirPin ∧ (plannerDiscard s).stepPin = s.stepPin ∧
    (plannerDiscard s).laserPin = s.laserPin ∧ (plannerDiscard s).airAssist = s.airAssist ∧
    (plannerDiscard s).aux1Assist = s.aux1Assist ∧ (plannerDiscard s).aux2Assist = s.aux2Assist ∧
    (plannerDiscard s).sense = s.sense ∧ (plannerDiscard s).queue = s.queue.tail ∧
    (plannerDiscard s).raster = s.raster ∧ (plannerDiscard s).homing = s.homing ∧
    (plannerDiscard s).trace = s.trace ++ [.plannerDiscardCurrentBlock] ∧ (plannerDiscard s).pulses = s.pulses ∧
    (plannerDiscard s).resultPort = s.resultPort ∧ (plannerDiscard s).initialised = s.initialised ∧
    (plannerDiscard s).agenda = s.agenda ∧ (plannerDiscard s).freeDraws = s.freeDraws :=
  ⟨rfl, rfl, rfl, rfl, rfl, rfl, rfl, rfl, rfl, rfl, rfl, rfl, rfl, rfl, rfl, rfl, rfl, rfl, rfl, rfl, rfl, rfl,
    rfl, rfl, rfl, rfl, rfl, rfl, rfl, rfl, rfl, rfl, rfl, rfl, rfl, rfl, rfl, rfl, rfl, rfl, rfl, rfl⟩

@[simp] theorem plannerReset_fields (s : State) :
    (plannerReset s).cfg = s.cfg ∧ (plannerReset s).currentBlock = s.currentBlock ∧
    (plannerReset s).counter = s.counter ∧ (plannerReset s).stepEventsCompleted = s.stepEventsCompleted ∧
    (plannerReset s).adjustedRate = s.adjustedRate ∧ (plannerReset s).cyclesPerStepEvent = s.cyclesPerStepEvent ∧
    (plannerReset s).accCounter = s.accCounter ∧ (plannerReset s).outBits = s.outBits ∧
    (plannerReset s).pixelCounter = s.pixelCounter ∧ (plannerReset s).position = s.position ∧
    (plannerReset s).processingFlag = s.processingFlag ∧ (plannerReset s).stopRequested = s.stopRequested ∧
    (plannerReset s).stopStatus = s.stopStatus ∧ (plannerReset s).busy = s.busy ∧
    (plannerReset s).pwmCounter = s.pwmCounter ∧ (plannerReset s).laserDuty = s.laserDuty ∧
    (plannerReset s).stepPrescaler = s.stepPrescaler ∧ (plannerReset s).stepCeiling = s.stepCeiling ∧
    (plannerReset s).pulseArmed = s.pulseArmed ∧ (plannerReset s).beamArmed = s.beamArmed ∧
    (plannerReset s).beamPrescaler = s.beamPrescaler ∧ (plannerReset s).beamCeiling = s.beamCeiling ∧
    (plannerReset s).now = s.now ∧ (plannerReset s).stepLastFire = s.stepLastFire ∧
    (plannerReset s).pulseDeadline = s.pulseDeadline ∧ (plannerReset s).beamDeadline = s.beamDeadline ∧
    (plannerReset s).dirPin = s.dirPin ∧ (plannerReset s).stepPin = s.stepPin ∧
    (plannerReset s).laserPin = s.laserPin ∧ (plannerReset s).airAssist = s.airAssist ∧
    (plannerReset s).aux1Assist = s.aux1Assist ∧ (plannerReset s).aux2Assist = s.aux2Assist ∧
    (plannerReset s).sense = s.sense ∧ (plannerReset s).queue = [] ∧ (plannerReset s).raster = s.raster ∧
    (plannerReset s).homing = s.homing ∧ (plannerReset s).trace = s.trace ++ [.plannerResetBlockBuffer] ∧
    (plannerReset s).pulses = s.pulses ∧ (plannerReset s).resultPort = s.resultPort ∧
    (plannerReset s).initialised = s.initialised ∧ (plannerReset s).agenda = s.agenda ∧
    (plannerReset s).freeDraws = s.freeDraws :=
  ⟨rfl, rfl, rfl, rfl, rfl, rfl, rfl, rfl, rfl, rfl, rfl, rfl, rfl, rfl, rfl, rfl, rfl, rfl, rfl, rfl, rfl, rfl,
    rfl, rfl, rfl, rfl, rfl, rfl, rfl, rfl, rfl, rfl, rfl, rfl, rfl, rfl, rfl, rfl, rfl, rfl, rfl, rfl⟩

@[simp] theorem plannerPush_fields (r : List Byte) (s : State) :
    (plannerPush r s).cfg = s.cfg ∧ (plannerPush r s).currentBlock = s.currentBlock ∧
    (plannerPush r s).counter = s.counter ∧ (plannerPush r s).stepEventsCompleted = s.stepEventsCompleted ∧
    (plannerPush r s).adjustedRate = s.adjustedRate ∧ (plannerPush r s).cyclesPerStepEvent = s.cyclesPerStepEvent ∧
    (plannerPush r s).accCounter = s.accCounter ∧ (plannerPush r s).outBits = s.outBits ∧
    (plannerPush r s).pixelCounter = s.pixelCounter ∧ (plannerPush r s).position = s.position ∧
    (plannerPush r s).processingFlag = s.processingFlag ∧ (plannerPush r s).stopRequested = s.stopRequested ∧
    (plannerPush r s).stopStatus = s.stopStatus ∧ (plannerPush r s).busy = s.busy ∧
    (plannerPush r s).pwmCounter = s.pwmCounter ∧ (plannerPush r s).laserDuty = s.laserDuty ∧
    (plannerPush r s).stepPrescaler = s.stepPrescaler ∧ (plannerPush r s).stepCeiling = s.stepCeiling ∧
    (plannerPush r s).pulseArmed = s.pulseArmed ∧ (plannerPush r s).beamArmed = s.beamArmed ∧
    (plannerPush r s).beamPrescaler = s.beamPrescaler ∧ (plannerPush r s).beamCeiling = s.beamCeiling ∧
    (plannerPush r s).now = s.now ∧ (plannerPush r s).stepLastFire = s.stepLastFire ∧
    (plannerPush r s).pulseDeadline = s.pulseDeadline ∧ (plannerPush r s).beamDeadline = s.beamDeadline ∧
    (plannerPush r s).dirPin = s.dirPin ∧ (plannerPush r s).stepPin = s.stepPin ∧
    (plannerPush r s).laserPin = s.laserPin ∧ (plannerPush r s).airAssist = s.airAssist ∧
    (plannerPush r s).aux1Assist = s.aux1Assist ∧ (plannerPush r s).aux2Assist = s.aux2Assist ∧
    (plannerPush r s).sense = s.sense ∧ (plannerPush r s).queue = s.queue ++ [r] ∧
    (plannerPush r s).raster = s.raster ∧ (plannerPush r s).homing = s.homing ∧ (plannerPush r s).trace = s.trace ∧
    (plannerPush r s).pulses = s.pulses ∧ (plannerPush r s).resultPort = s.resultPort ∧
    (plannerPush r s).initialised = s.initialised ∧ (plannerPush r s).agenda = s.agenda ∧
    (plannerPush r s).freeDraws = s.freeDraws :=
  ⟨rfl, rfl, rfl, rfl, rfl, rfl, rfl, rfl, rfl, rfl, rfl, rfl, rfl, rfl, rfl, rfl, rfl, rfl, rfl, rfl, rfl, rfl,
    rfl, rfl, rfl, rfl, rfl, rfl, rfl, rfl, rfl, rfl, rfl, rfl, rfl, rfl, rfl, rfl, rfl, rfl, rfl, rfl⟩

@[simp] theorem rasterRead_fields (s : State) :
    (rasterRead s).cfg = s.cfg ∧ (rasterRead s).currentBlock = s.currentBlock ∧ (rasterRead s).counter = s.counter ∧
    (rasterRead s).stepEventsCompleted = s.stepEventsCompleted ∧ (rasterRead s).adjustedRate = s.adjustedRate ∧
    (rasterRead s).cyclesPerStepEvent = s.cyclesPerStepEvent ∧ (rasterRead s).accCounter = s.accCounter ∧
    (rasterRead s).outBits = s.outBits ∧ (rasterRead s).pixelCounter = s.pixelCounter ∧
    (rasterRead s).position = s.position ∧ (rasterRead s).processingFlag = s.processingFlag ∧
    (rasterRead s).stopRequested = s.stopRequested ∧ (rasterRead s).stopStatus = s.stopStatus ∧
    (rasterRead s).busy = s.busy ∧ (rasterRead s).pwmCounter = s.pwmCounter ∧
    (rasterRead s).laserDuty = s.laserDuty ∧ (rasterRead s).stepPrescaler = s.stepPrescaler ∧
    (rasterRead s).stepCeiling = s.stepCeiling ∧ (rasterRead s).pulseArmed = s.pulseArmed ∧
    (rasterRead s).beamArmed = s.beamArmed ∧ (rasterRead s).beamPrescaler = s.beamPrescaler ∧
    (rasterRead s).beamCeiling = s.beamCeiling ∧ (rasterRead s).now = s.now ∧
    (rasterRead s).stepLastFire = s.stepLastFire ∧ (rasterRead s).pulseDeadline = s.pulseDeadline ∧
    (rasterRead s).beamDeadline = s.beamDeadline ∧ (rasterRead s).dirPin = s.dirPin ∧
    (rasterRead s).stepPin = s.stepPin ∧ (rasterRead s).laserPin = s.laserPin ∧
    (rasterRead s).airAssist = s.airAssist ∧ (rasterRead s).aux1Assist = s.aux1Assist ∧
    (rasterRead s).aux2Assist = s.aux2Assist ∧ (rasterRead s).sense = s.sense ∧ (rasterRead s).queue = s.queue ∧
    (rasterRead s).raster = s.raster.tail ∧ (rasterRead s).homing = s.homing ∧
    (rasterRead s).trace = s.trace ++ [.rasterRead (rasterByte s)] ∧ (rasterRead s).pulses = s.pulses ∧
    (rasterRead s).resultPort = s.resultPort ∧ (rasterRead s).initialised = s.initialised ∧
    (rasterRead s).agenda = s.agenda ∧
    (rasterRead s).freeDraws = (if s.raster.isEmpty then s.freeDraws + 1 else s.freeDraws) :=
  ⟨rfl, rfl, rfl, rfl, rfl, rfl, rfl, rfl, rfl, rfl, rfl, rfl, rfl, rfl, rfl, rfl, rfl, rfl, rfl, rfl, rfl, rfl,
    rfl, rfl, rfl, rfl, rfl, rfl, rfl, rfl, rfl, rfl, rfl, rfl, rfl, rfl, rfl, rfl, rfl, rfl, rfl, rfl⟩

@[simp] theorem serialConsumeData_fields (s : State) :
    (serialConsumeData s).cfg = s.cfg ∧ (serialConsumeData s).currentBlock = s.currentBlock ∧
    (serialConsumeData s).counter = s.counter ∧ (serialConsumeData s).stepEventsCompleted = s.stepEventsCompleted ∧
    (serialConsumeData s).adjustedRate = s.adjustedRate ∧
    (serialConsumeData s).cyclesPerStepEvent = s.cyclesPerStepEvent ∧
    (serialConsumeData s).accCounter = s.accCounter ∧ (serialConsumeData s).outBits = s.outBits ∧
    (serialConsumeData s).pixelCounter = s.pixelCounter ∧ (serialConsumeData s).position = s.position ∧
    (serialConsumeData s).processingFlag = s.processingFlag ∧ (serialConsumeData s).stopRequested = s.stopRequested ∧
    (serialConsumeData s).stopStatus = s.stopStatus ∧ (serialConsumeData s).busy = s.busy ∧
    (serialConsumeData s).pwmCounter = s.pwmCounter ∧ (serialConsumeData s).laserDuty = s.laserDuty ∧
    (serialConsumeData s).stepPrescaler = s.stepPrescaler ∧ (serialConsumeData s).stepCeiling = s.stepCeiling ∧
    (serialConsumeData s).pulseArmed = s.pulseArmed ∧ (serialConsumeData s).beamArmed = s.beamArmed ∧
    (serialConsumeData s).beamPrescaler = s.beamPrescaler ∧ (serialConsumeData s).beamCeiling = s.beamCeiling ∧
    (serialConsumeData s).now = s.now ∧ (serialConsumeData s).stepLastFire = s.stepLastFire ∧
    (serialConsumeData s).pulseDeadline = s.pulseDeadline ∧ (serialConsumeData s).beamDeadline = s.beamDeadline ∧
    (serialConsumeData s).dirPin = s.dirPin ∧ (serialConsumeData s).stepPin = s.stepPin ∧
    (serialConsumeData s).laserPin = s.laserPin ∧ (serialConsumeData s).airAssist = s.airAssist ∧
    (serialConsumeData s).aux1Assist = s.aux1Assist ∧ (serialConsumeData s).aux2Assist = s.aux2Assist ∧
    (serialConsumeData s).sense = s.sense ∧ (serialConsumeData s).queue = s.queue ∧
    (serialConsumeData s).raster = s.raster.drop (Config.consumedBytes s.freeDraws) ∧
    (serialConsumeData s).homing = s.homing ∧ (serialConsumeData s).trace = s.trace ++ [.serialConsumeData] ∧
    (serialConsumeData s).pulses = s.pulses ∧ (serialConsumeData s).resultPort = s.resultPort ∧
    (serialConsumeData s).initialised = s.initialised ∧ (serialConsumeData s).agenda = s.agenda ∧
    (serialConsumeData s).freeDraws = s.freeDraws + 1 :=
  ⟨rfl, rfl, rfl, rfl, rfl, rfl, rfl, rfl, rfl, rfl, rfl, rfl, rfl, rfl, rfl, rfl, rfl, rfl, rfl, rfl, rfl, rfl,
    rfl, rfl, rfl, rfl, rfl, rfl, rfl, rfl, rfl, rfl, rfl, rfl, rfl, rfl, rfl, rfl, rfl, rfl, rfl, rfl⟩

@[simp] theorem rasterPush_fields (v : Byte) (s : State) :
    (rasterPush v s).cfg = s.cfg ∧ (rasterPush v s).currentBlock = s.currentBlock ∧
    (rasterPush v s).counter = s.counter ∧ (rasterPush v s).stepEventsCompleted = s.stepEventsCompleted ∧
    (rasterPush v s).adjustedRate = s.adjustedRate ∧ (rasterPush v s).cyclesPerStepEvent = s.cyclesPerStepEvent ∧
    (rasterPush v s).accCounter = s.accCounter ∧ (rasterPush v s).outBits = s.outBits ∧
    (rasterPush v s).pixelCounter = s.pixelCounter ∧ (rasterPush v s).position = s.position ∧
    (rasterPush v s).processingFlag = s.processingFlag ∧ (rasterPush v s).stopRequested = s.stopRequested ∧
    (rasterPush v s).stopStatus = s.stopStatus ∧ (rasterPush v s).busy = s.busy ∧
    (rasterPush v s).pwmCounter = s.pwmCounter ∧ (rasterPush v s).laserDuty = s.laserDuty ∧
    (rasterPush v s).stepPrescaler = s.stepPrescaler ∧ (rasterPush v s).stepCeiling = s.stepCeiling ∧
    (rasterPush v s).pulseArmed = s.pulseArmed ∧ (rasterPush v s).beamArmed = s.beamArmed ∧
    (rasterPush v s).beamPrescaler = s.beamPrescaler ∧ (rasterPush v s).beamCeiling = s.beamCeiling ∧
    (rasterPush v s).now = s.now ∧ (rasterPush v s).stepLastFire = s.stepLastFire ∧
    (rasterPush v s).pulseDeadline = s.pulseDeadline ∧ (rasterPush v s).beamDeadline = s.beamDeadline ∧
    (rasterPush v s).dirPin = s.dirPin ∧ (rasterPush v s).stepPin = s.stepPin ∧
    (rasterPush v s).laserPin = s.laserPin ∧ (rasterPush v s).airAssist = s.airAssist ∧
    (rasterPush v s).aux1Assist = s.aux1Assist ∧ (rasterPush v s).aux2Assist = s.aux2Assist ∧
    (rasterPush v s).sense = s.sense ∧ (rasterPush v s).queue = s.queue ∧ (rasterPush v s).raster = s.raster ++ [v] ∧
    (rasterPush v s).homing = s.homing ∧ (rasterPush v s).trace = s.trace ∧ (rasterPush v s).pulses = s.pulses ∧
    (rasterPush v s).resultPort = s.resultPort ∧ (rasterPush v s).initialised = s.initialised ∧
    (rasterPush v s).agenda = s.agenda ∧ (rasterPush v s).freeDraws = s.freeDraws :=
  ⟨rfl, rfl, rfl, rfl, rfl, rfl, rfl, rfl, rfl, rfl, rfl, rfl, rfl, rfl, rfl, rfl, rfl, rfl, rfl, rfl, rfl, rfl,
    rfl, rfl, rfl, rfl, rfl, rfl, rfl, rfl, rfl, rfl, rfl, rfl, rfl, rfl, rfl, rfl, rfl, rfl, rfl, rfl⟩

@[simp] theorem setStepRate_fields (r : Nat) (s : State) :
    (setStepRate r s).cfg = s.cfg ∧ (setStepRate r s).currentBlock = s.currentBlock ∧
    (setStepRate r s).counter = s.counter ∧ (setStepRate r s).stepEventsCompleted = s.stepEventsCompleted ∧
    (setStepRate r s).adjustedRate = s.adjustedRate ∧
    (setStepRate r s).cyclesPerStepEvent = achievedPeriod (rateToCycles s.cfg r) ∧
    (setStepRate r s).accCounter = s.accCounter ∧ (setStepRate r s).outBits = s.outBits ∧
    (setStepRate r s).pixelCounter = s.pixelCounter ∧ (setStepRate r s).position = s.position ∧
    (setStepRate r s).processingFlag = s.processingFlag ∧ (setStepRate r s).stopRequested = s.stopRequested ∧
    (setStepRate r s).stopStatus = s.stopStatus ∧ (setStepRate r s).busy = s.busy ∧
    (setStepRate r s).pwmCounter = s.pwmCounter ∧ (setStepRate r s).laserDuty = s.laserDuty ∧
    (setStepRate r s).stepPrescaler = (selectPrescaler (rateToCycles s.cfg r)).1 ∧
    (setStepRate r s).stepCeiling = (selectPrescaler (rateToCycles s.cfg r)).2 ∧
    (setStepRate r s).pulseArmed = s.pulseArmed ∧ (setStepRate r s).beamArmed = s.beamArmed ∧
    (setStepRate r s).beamPrescaler = s.beamPrescaler ∧ (setStepRate r s).beamCeiling = s.beamCeiling ∧
    (setStepRate r s).now = s.now ∧ (setStepRate r s).stepLastFire = s.stepLastFire ∧
    (setStepRate r s).pulseDeadline = s.pulseDeadline ∧ (setStepRate r s).beamDeadline = s.beamDeadline ∧
    (setStepRate r s).dirPin = s.dirPin ∧ (setStepRate r s).stepPin = s.stepPin ∧
    (setStepRate r s).laserPin = s.laserPin ∧ (setStepRate r s).airAssist = s.airAssist ∧
    (setStepRate r s).aux1Assist = s.aux1Assist ∧ (setStepRate r s).aux2Assist = s.aux2Assist ∧
    (setStepRate r s).sense = s.sense ∧ (setStepRate r s).queue = s.queue ∧ (setStepRate r s).raster = s.raster ∧
    (setStepRate r s).homing = s.homing ∧
    (setStepRate r s).trace = s.trace ++ [.stepTimer (selectPrescaler (rateToCycles s.cfg r)).1 (selectPrescaler (rateToCycles s.cfg r)).2] ∧
    (setStepRate r s).pulses = s.pulses ∧ (setStepRate r s).resultPort = s.resultPort ∧
    (setStepRate r s).initialised = s.initialised ∧ (setStepRate r s).agenda = s.agenda ∧
    (setStepRate r s).freeDraws = s.freeDraws :=
  ⟨rfl, rfl, rfl, rfl, rfl, rfl, rfl, rfl, rfl, rfl, rfl, rfl, rfl, rfl, rfl, rfl, rfl, rfl, rfl, rfl, rfl, rfl,
    rfl, rfl, rfl, rfl, rfl, rfl, rfl, rfl, rfl, rfl, rfl, rfl, rfl, rfl, rfl, rfl, rfl, rfl, rfl, rfl⟩

@[simp] theorem armPulseShaper_fields (s : State) :
    (armPulseShaper s).cfg = s.cfg ∧ (armPulseShaper s).currentBlock = s.currentBlock ∧
    (armPulseShaper s).counter = s.counter ∧ (armPulseShaper s).stepEventsCompleted = s.stepEventsCompleted ∧
    (armPulseShaper s).adjustedRate = s.adjustedRate ∧ (armPulseShaper s).cyclesPerStepEvent = s.cyclesPerStepEvent ∧
    (armPulseShaper s).accCounter = s.accCounter ∧ (armPulseShaper s).outBits = s.outBits ∧
    (armPulseShaper s).pixelCounter = s.pixelCounter ∧ (armPulseShaper s).position = s.position ∧
    (armPulseShaper s).processingFlag = s.processingFlag ∧ (armPulseShaper s).stopRequested = s.stopRequested ∧
    (armPulseShaper s).stopStatus = s.stopStatus ∧ (armPulseShaper s).busy = s.busy ∧
    (armPulseShaper s).pwmCounter = s.pwmCounter ∧ (armPulseShaper s).laserDuty = s.laserDuty ∧
    (armPulseShaper s).stepPrescaler = s.stepPrescaler ∧ (armPulseShaper s).stepCeiling = s.stepCeiling ∧
    (armPulseShaper s).pulseArmed = true ∧ (armPulseShaper s).beamArmed = s.beamArmed ∧
    (armPulseShaper s).beamPrescaler = s.beamPrescaler ∧ (armPulseShaper s).beamCeiling = s.beamCeiling ∧
    (armPulseShaper s).now = s.now ∧ (armPulseShaper s).stepLastFire = s.stepLastFire ∧
    (armPulseShaper s).pulseDeadline = s.now + pulseCycles s.cfg ∧ (armPulseShaper s).beamDeadline = s.beamDeadline ∧
    (armPulseShaper s).dirPin = s.dirPin ∧ (armPulseShaper s).stepPin = s.stepPin ∧
    (armPulseShaper s).laserPin = s.laserPin ∧ (armPulseShaper s).airAssist = s.airAssist ∧
    (armPulseShaper s).aux1Assist = s.aux1Assist ∧ (armPulseShaper s).aux2Assist = s.aux2Assist ∧
    (armPulseShaper s).sense = s.sense ∧ (armPulseShaper s).queue = s.queue ∧ (armPulseShaper s).raster = s.raster ∧
    (armPulseShaper s).homing = s.homing ∧ (armPulseShaper s).trace = s.trace ++ [.armPulse] ∧
    (armPulseShaper s).pulses = s.pulses ∧ (armPulseShaper s).resultPort = s.resultPort ∧
    (armPulseShaper s).initialised = s.initialised ∧ (armPulseShaper s).agenda = s.agenda ∧
    (armPulseShaper s).freeDraws = s.freeDraws :=
  ⟨rfl, rfl, rfl, rfl, rfl, rfl, rfl, rfl, rfl, rfl, rfl, rfl, rfl, rfl, rfl, rfl, rfl, rfl, rfl, rfl, rfl, rfl,
    rfl, rfl, rfl, rfl, rfl, rfl, rfl, rfl, rfl, rfl, rfl, rfl, rfl, rfl, rfl, rfl, rfl, rfl, rfl, rfl⟩

@[simp] theorem startProcessing_fields (s : State) :
    (startProcessing s).cfg = s.cfg ∧ (startProcessing s).currentBlock = s.currentBlock ∧
    (startProcessing s).counter = s.counter ∧ (startProcessing s).stepEventsCompleted = s.stepEventsCompleted ∧
    (startProcessing s).adjustedRate = s.adjustedRate ∧
    (startProcessing s).cyclesPerStepEvent = s.cyclesPerStepEvent ∧ (startProcessing s).accCounter = s.accCounter ∧
    (startProcessing s).outBits = s.outBits ∧ (startProcessing s).pixelCounter = s.pixelCounter ∧
    (startProcessing s).position = s.position ∧ (startProcessing s).processingFlag = true ∧
    (startProcessing s).stopRequested = s.stopRequested ∧ (startProcessing s).stopStatus = s.stopStatus ∧
    (startProcessing s).busy = s.busy ∧ (startProcessing s).pwmCounter = s.pwmCounter ∧
    (startProcessing s).laserDuty = s.laserDuty ∧ (startProcessing s).stepPrescaler = s.stepPrescaler ∧
    (startProcessing s).stepCeiling = s.stepCeiling ∧ (startProcessing s).pulseArmed = s.pulseArmed ∧
    (startProcessing s).beamArmed = s.beamArmed ∧ (startProcessing s).beamPrescaler = s.beamPrescaler ∧
    (startProcessing s).beamCeiling = s.beamCeiling ∧ (startProcessing s).now = s.now ∧
    (startProcessing s).stepLastFire = (if s.processingFlag then s.stepLastFire else s.now) ∧
    (startProcessing s).pulseDeadline = s.pulseDeadline ∧ (startProcessing s).beamDeadline = s.beamDeadline ∧
    (startProcessing s).dirPin = s.dirPin ∧ (startProcessing s).stepPin = s.stepPin ∧
    (startProcessing s).laserPin = s.laserPin ∧ (startProcessing s).airAssist = s.airAssist ∧
    (startProcessing s).aux1Assist = s.aux1Assist ∧ (startProcessing s).aux2Assist = s.aux2Assist ∧
    (startProcessing s).sense = s.sense ∧ (startProcessing s).queue = s.queue ∧
    (startProcessing s).raster = s.raster ∧ (startProcessing s).homing = s.homing ∧
    (startProcessing s).trace = s.trace ∧ (startProcessing s).pulses = s.pulses ∧
    (startProcessing s).resultPort = s.resultPort ∧ (startProcessing s).initialised = s.initialised ∧
    (startProcessing s).agenda = s.agenda ∧ (startProcessing s).freeDraws = s.freeDraws :=
  ⟨rfl, rfl, rfl, rfl, rfl, rfl, rfl, rfl, rfl, rfl, rfl, rfl, rfl, rfl, rfl, rfl, rfl, rfl, rfl, rfl, rfl, rfl,
    rfl, rfl, rfl, rfl, rfl, rfl, rfl, rfl, rfl, rfl, rfl, rfl, rfl, rfl, rfl, rfl, rfl, rfl, rfl, rfl⟩

@[simp] theorem stopProcessing_fields (s : State) :
    (stopProcessing s).cfg = s.cfg ∧ (stopProcessing s).currentBlock = s.currentBlock ∧
    (stopProcessing s).counter = s.counter ∧ (stopProcessing s).stepEventsCompleted = s.stepEventsCompleted ∧
    (stopProcessing s).adjustedRate = s.adjustedRate ∧ (stopProcessing s).cyclesPerStepEvent = s.cyclesPerStepEvent ∧
    (stopProcessing s).accCounter = s.accCounter ∧ (stopProcessing s).outBits = s.outBits ∧
    (stopProcessing s).pixelCounter = s.pixelCounter ∧ (stopProcessing s).position = s.position ∧
    (stopProcessing s).processingFlag = false ∧ (stopProcessing s).stopRequested = s.stopRequested ∧
    (stopProcessing s).stopStatus = s.stopStatus ∧ (stopProcessing s).busy = s.busy ∧
    (stopProcessing s).pwmCounter = s.pwmCounter ∧ (stopProcessing s).laserDuty = s.laserDuty ∧
    (stopProcessing s).stepPrescaler = s.stepPrescaler ∧ (stopProcessing s).stepCeiling = s.stepCeiling ∧
    (stopProcessing s).pulseArmed = s.pulseArmed ∧ (stopProcessing s).beamArmed = s.beamArmed ∧
    (stopProcessing s).beamPrescaler = s.beamPrescaler ∧ (stopProcessing s).beamCeiling = s.beamCeiling ∧
    (stopProcessing s).now = s.now ∧ (stopProcessing s).stepLastFire = s.stepLastFire ∧
    (stopProcessing s).pulseDeadline = s.pulseDeadline ∧ (stopProcessing s).beamDeadline = s.beamDeadline ∧
    (stopProcessing s).dirPin = s.dirPin ∧ (stopProcessing s).stepPin = s.stepPin ∧
    (stopProcessing s).laserPin = s.laserPin ∧ (stopProcessing s).airAssist = s.airAssist ∧
    (stopProcessing s).aux1Assist = s.aux1Assist ∧ (stopProcessing s).aux2Assist = s.aux2Assist ∧
    (stopProcessing s).sense = s.sense ∧ (stopProcessing s).queue = s.queue ∧ (stopProcessing s).raster = s.raster ∧
    (stopProcessing s).homing = s.homing ∧ (stopProcessing s).trace = s.trace ∧
    (stopProcessing s).pulses = s.pulses ∧ (stopProcessing s).resultPort = s.resultPort ∧
    (stopProcessing s).initialised = s.initialised ∧ (stopProcessing s).agenda = s.agenda ∧
    (stopProcessing s).freeDraws = s.freeDraws :=
  ⟨rfl, rfl, rfl, rfl, rfl, rfl, rfl, rfl, rfl, rfl, rfl, rfl, rfl, rfl, rfl, rfl, rfl, rfl, rfl, rfl, rfl, rfl,
    rfl, rfl, rfl, rfl, rfl, rfl, rfl, rfl, rfl, rfl, rfl, rfl, rfl, rfl, rfl, rfl, rfl, rfl, rfl, rfl⟩

@[simp] theorem stopResume_fields (s : State) :
    (stopResume s).cfg = s.cfg ∧ (stopResume s).currentBlock = s.currentBlock ∧ (stopResume s).counter = s.counter ∧
    (stopResume s).stepEventsCompleted = s.stepEventsCompleted ∧ (stopResume s).adjustedRate = s.adjustedRate ∧
    (stopResume s).cyclesPerStepEvent = s.cyclesPerStepEvent ∧ (stopResume s).accCounter = s.accCounter ∧
    (stopResume s).outBits = s.outBits ∧ (stopResume s).pixelCounter = s.pixelCounter ∧
    (stopResume s).position = s.position ∧ (stopResume s).processingFlag = s.processingFlag ∧
    (stopResume s).stopRequested = false ∧ (stopResume s).stopStatus = .ok ∧ (stopResume s).busy = s.busy ∧
    (stopResume s).pwmCounter = s.pwmCounter ∧ (stopResume s).laserDuty = s.laserDuty ∧
    (stopResume s).stepPrescaler = s.stepPrescaler ∧ (stopResume s).stepCeiling = s.stepCeiling ∧
    (stopResume s).pulseArmed = s.pulseArmed ∧ (stopResume s).beamArmed = s.beamArmed ∧
    (stopResume s).beamPrescaler = s.beamPrescaler ∧ (stopResume s).beamCeiling = s.beamCeiling ∧
    (stopResume s).now = s.now ∧ (stopResume s).stepLastFire = s.stepLastFire ∧
    (stopResume s).pulseDeadline = s.pulseDeadline ∧ (stopResume s).beamDeadline = s.beamDeadline ∧
    (stopResume s).dirPin = s.dirPin ∧ (stopResume s).stepPin = s.stepPin ∧ (stopResume s).laserPin = s.laserPin ∧
    (stopResume s).airAssist = s.airAssist ∧ (stopResume s).aux1Assist = s.aux1Assist ∧
    (stopResume s).aux2Assist = s.aux2Assist ∧ (stopResume s).sense = s.sense ∧ (stopResume s).queue = s.queue ∧
    (stopResume s).raster = s.raster ∧ (stopResume s).homing = s.homing ∧ (stopResume s).trace = s.trace ∧
    (stopResume s).pulses = s.pulses ∧ (stopResume s).resultPort = s.resultPort ∧
    (stopResume s).initialised = s.initialised ∧ (stopResume s).agenda = s.agenda ∧
    (stopResume s).freeDraws = s.freeDraws :=
  ⟨rfl, rfl, rfl, rfl, rfl, rfl, rfl, rfl, rfl, rfl, rfl, rfl, rfl, rfl, rfl, rfl, rfl, rfl, rfl, rfl, rfl, rfl,
    rfl, rfl, rfl, rfl, rfl, rfl, rfl, rfl, rfl, rfl, rfl, rfl, rfl, rfl, rfl, rfl, rfl, rfl, rfl, rfl⟩

@[simp] theorem returnResult_fields (r : Result) (s : State) :
    (returnResult r s).cfg = s.cfg ∧ (returnResult r s).currentBlock = s.currentBlock ∧
    (returnResult r s).counter = s.counter ∧ (returnResult r s).stepEventsCompleted = s.stepEventsCompleted ∧
    (returnResult r s).adjustedRate = s.adjustedRate ∧ (returnResult r s).cyclesPerStepEvent = s.cyclesPerStepEvent ∧
    (returnResult r s).accCounter = s.accCounter ∧ (returnResult r s).outBits = s.outBits ∧
    (returnResult r s).pixelCounter = s.pixelCounter ∧ (returnResult r s).position = s.position ∧
    (returnResult r s).processingFlag = s.processingFlag ∧ (returnResult r s).stopRequested = s.stopRequested ∧
    (returnResult r s).stopStatus = s.stopStatus ∧ (returnResult r s).busy = s.busy ∧
    (returnResult r s).pwmCounter = s.pwmCounter ∧ (returnResult r s).laserDuty = s.laserDuty ∧
    (returnResult r s).stepPrescaler = s.stepPrescaler ∧ (returnResult r s).stepCeiling = s.stepCeiling ∧
    (returnResult r s).pulseArmed = s.pulseArmed ∧ (returnResult r s).beamArmed = s.beamArmed ∧
    (returnResult r s).beamPrescaler = s.beamPrescaler ∧ (returnResult r s).beamCeiling = s.beamCeiling ∧
    (returnResult r s).now = s.now ∧ (returnResult r s).stepLastFire = s.stepLastFire ∧
    (returnResult r s).pulseDeadline = s.pulseDeadline ∧ (returnResult r s).beamDeadline = s.beamDeadline ∧
    (returnResult r s).dirPin = s.dirPin ∧ (returnResult r s).stepPin = s.stepPin ∧
    (returnResult r s).laserPin = s.laserPin ∧ (returnResult r s).airAssist = s.airAssist ∧
    (returnResult r s).aux1Assist = s.aux1Assist ∧ (returnResult r s).aux2Assist = s.aux2Assist ∧
    (returnResult r s).sense = s.sense ∧ (returnResult r s).queue = s.queue ∧ (returnResult r s).raster = s.raster ∧
    (returnResult r s).homing = s.homing ∧ (returnResult r s).trace = s.trace ++ [.result r] ∧
    (returnResult r s).pulses = s.pulses ∧ (returnResult r s).resultPort = some r ∧
    (returnResult r s).initialised = s.initialised ∧ (returnResult r s).agenda = s.agenda ∧
    (returnResult r s).freeDraws = s.freeDraws :=
  ⟨rfl, rfl, rfl, rfl, rfl, rfl, rfl, rfl, rfl, rfl, rfl, rfl, rfl, rfl, rfl, rfl, rfl, rfl, rfl, rfl, rfl, rfl,
    rfl, rfl, rfl, rfl, rfl, rfl, rfl, rfl, rfl, rfl, rfl, rfl, rfl, rfl, rfl, rfl, rfl, rfl, rfl, rfl⟩

end Sys2Proof.Machine
end

