-- ==== Sys2Proof/Laws/Ops.lean ====
section
/-! SUPPORT. One lemma for each operation built over those of Machine/Ops.lean, which says once everything it can do:
as one record update (every field it does not list is unchanged), or as a frame with the written fields named. -/

namespace Sys2Proof.Machine

/-! ### Host operations -/

/-- The enabling condition of a host operation, read off the two registers it looks at. -/
theorem hostReady_iff (s : State) : hostReady s = true ↔ s.busy = false ∧ s.homing = none := by
  simp [hostReady]

/-- A host operation of a ready core has its effect. -/
theorem hostOperation_of_ready (f : State → State) {s : State} (hb : s.busy = false) (hh : s.homing = none) :
    hostOperation f s = .next (f s) := by
  simp [hostOperation, hostReady, hb, hh]

/-- What a host operation that answers a next state was and did. -/
theorem hostOperation_next {f : State → State} {s t : State} (h : hostOperation f s = .next t) :
    (s.busy = false ∧ s.homing = none) ∧ t = f s := by
  unfold hostOperation at h
  split at h
  · rename_i hr
    exact ⟨(hostReady_iff s).1 hr, by simpa using h.symm⟩
  · cases h

/-! ### Pins and stops -/

/-- `drive_pins` as one update (R173, R174). -/
theorem drivePins_eq (w : Pins) (s : State) :
    drivePins w s =
      { s with
        dirPin := dirPart w, stepPin := stepPart w, pulseArmed := true, pulseDeadline := s.now + pulseCycles s.cfg
        trace := s.trace ++ [.dirPin (dirPart w), .stepPin (stepPart w), .armPulse] } := by
  simp [drivePins, armPulseShaper, setStepPin, setDirPin, emit]

/-- `request_stop` changes at most the flag, the status and the trace, and the flag is set after it (R272). -/
theorem requestStop_frame (kind : StopStatus) (s : State) :
    requestStop kind s =
        { s with
          stopRequested := true, stopStatus := (requestStop kind s).stopStatus
          trace := (requestStop kind s).trace } ∧
      ((requestStop kind s).trace = s.trace ∨ (requestStop kind s).trace = s.trace ++ [.serialStop]) := by
  unfold requestStop
  split
  · rename_i h
    exact ⟨by rw [← h], .inl rfl⟩
  · exact ⟨rfl, .inr rfl⟩

/-- The stop path as one update (R219). -/
theorem takeStop_eq (s : State) :
    takeStop s =
      { s with
        processingFlag := false, queue := [], currentBlock := none, busy := false
        trace := s.trace ++ [.plannerResetBlockBuffer] } := rfl

/-- The limit return changes at most the stop registers, `busy` and the trace (R220). -/
theorem limitReturn_frame (kind : StopStatus) (s : State) :
    limitReturn kind s =
      { s with
        stopRequested := true, stopStatus := (limitReturn kind s).stopStatus, busy := false
        trace := (limitReturn kind s).trace } := by
  unfold limitReturn
  rw [(requestStop_frame kind s).1]

/-- The underrun as one update (R223). -/
theorem underrun_eq (s : State) : underrun s = { s with processingFlag := false, busy := false } := rfl

/-- The interlock cut writes at most the laser intensity (R220). -/
theorem interlockCut_frame (s : State) :
    interlockCut s = { s with laserDuty := (interlockCut s).laserDuty, trace := (interlockCut s).trace } ∧
      ((interlockCut s).trace = s.trace ∨ (interlockCut s).trace = s.trace ++ [.laserDuty 0]) := by
  unfold interlockCut
  split
  · exact ⟨rfl, .inr rfl⟩
  · exact ⟨rfl, .inl rfl⟩

/-- With an interlock input asserted the intensity is 0 after the cut (R220). -/
theorem interlockCut_of_open {s : State} (h : interlockOpen s = true) :
    interlockCut s = { s with laserDuty := 0, trace := s.trace ++ [.laserDuty 0] } := by
  simp [interlockCut, h, controlLaserIntensity, emit]

/-! ### Beam -/

/-- Programming and arming the beam one-shot as one update (R192, R194). -/
theorem armBeamTimer_eq (w : Nat) (s : State) :
    armBeamTimer w s =
      { s with
        beamPrescaler := (selectPrescaler w).1, beamCeiling := (selectPrescaler w).2, beamArmed := true
        beamDeadline := s.now + achievedPeriod w
        trace := s.trace ++ [.beamTimer (selectPrescaler w).1 (selectPrescaler w).2] } := rfl

/-- A laser pulse writes the laser pin, the beam one-shot and the trace, and nothing else (R192). -/
theorem issueLaserPulse_frame (s : State) :
    issueLaserPulse s =
      { s with
        laserPin := (issueLaserPulse s).laserPin, beamPrescaler := (issueLaserPulse s).beamPrescaler
        beamCeiling := (issueLaserPulse s).beamCeiling, beamArmed := (issueLaserPulse s).beamArmed
        beamDeadline := (issueLaserPulse s).beamDeadline, trace := (issueLaserPulse s).trace } := by
  unfold issueLaserPulse
  split
  · rfl
  · split <;> rfl

/-- A pulse at duty 0 holds the pin off (R192). -/
theorem issueLaserPulse_of_zero {s : State} (h : s.laserDuty = 0) : issueLaserPulse s = setLaserPin false s := by
  simp [issueLaserPulse, h]

/-- Step 5 writes the beam state and the trace, and nothing else (R191). -/
theorem beamStepPulse_frame (s : State) :
    beamStepPulse s =
      { s with
        pwmCounter := (beamStepPulse s).pwmCounter, laserPin := (beamStepPulse s).laserPin
        beamPrescaler := (beamStepPulse s).beamPrescaler, beamCeiling := (beamStepPulse s).beamCeiling
        beamArmed := (beamStepPulse s).beamArmed, beamDeadline := (beamStepPulse s).beamDeadline
        trace := (beamStepPulse s).trace } := by
  unfold beamStepPulse
  split
  · rw [issueLaserPulse_frame]
  · rfl

/-- The burst counter stays in its range (R35). -/
theorem beamStepPulse_pwmCounter {s : State} (h1 : 1 ≤ s.pwmCounter) (h2 : s.pwmCounter ≤ s.cfg.beamEvery) :
    1 ≤ (beamStepPulse s).pwmCounter ∧ (beamStepPulse s).pwmCounter ≤ s.cfg.beamEvery := by
  unfold beamStepPulse
  split
  · rw [issueLaserPulse_frame]
    exact ⟨Nat.le_refl 1, Nat.le_trans h1 h2⟩
  · rename_i h
    simp only [laserPulseDue, decide_eq_true_eq] at h
    exact ⟨by simp, by simp; omega⟩

/-- A dimming refresh writes the laser intensity and the trace (R200). -/
theorem refreshDimming_eq (k : MotionKind) (b : MotionBlock) (s : State) :
    refreshDimming k b s =
      { s with laserDuty := refreshedIntensity k b s, trace := s.trace ++ [.laserDuty (refreshedIntensity k b s)] } :=
  rfl

/-- Raster sampling writes the pixel counter, the stream, the intensity and the trace (R203). -/
theorem rasterSample_frame (b : MotionBlock) (s : State) :
    rasterSample b s =
      { s with
        pixelCounter := (rasterSample b s).pixelCounter, raster := (rasterSample b s).raster
        freeDraws := (rasterSample b s).freeDraws, laserDuty := (rasterSample b s).laserDuty
        trace := (rasterSample b s).trace } := by
  unfold rasterSample
  split
  · split <;> rfl
  · rfl

/-! ### Rate -/

/-- `sat_sub` is subtraction of natural numbers (R13). -/
theorem satSub_eq (a b : Nat) : satSub a b = a - b := by
  unfold satSub
  split <;> omega

/-- `set_step_rate` as one update (R135). -/
theorem setStepRate_eq (r : Nat) (s : State) :
    setStepRate r s =
      { s with
        stepPrescaler := (selectPrescaler (rateToCycles s.cfg r)).1
        stepCeiling := (selectPrescaler (rateToCycles s.cfg r)).2
        cyclesPerStepEvent := achievedPeriod (rateToCycles s.cfg r)
        trace := s.trace ++
          [.stepTimer (selectPrescaler (rateToCycles s.cfg r)).1 (selectPrescaler (rateToCycles s.cfg r)).2] } := rfl

/-- A phase writes the rate and the acceleration counter only (R154 to R157). -/
theorem runPhase_frame (b : MotionBlock) (s : State) :
    runPhase b s =
      { s with adjustedRate := (runPhase b s).adjustedRate, accCounter := (runPhase b s).accCounter } := by
  unfold runPhase
  cases blockPhase b s
  · simp only [phaseA]; split <;> rfl
  · rfl
  · rfl
  · simp only [phaseD]; split <;> rfl

/-- Every phase of a block keeps the rate within any two bounds that hold the nominal and the final rate, and the rate
before it (R165). -/
theorem runPhase_rate {lo hi : Nat} {b : MotionBlock} {s : State} (hn : lo ≤ b.nominalRate.toNat)
    (hn' : b.nominalRate.toNat ≤ hi) (hf : lo ≤ b.finalRate.toNat) (hf' : b.finalRate.toNat ≤ hi)
    (h : lo ≤ s.adjustedRate) (h' : s.adjustedRate ≤ hi) :
    lo ≤ (runPhase b s).adjustedRate ∧ (runPhase b s).adjustedRate ≤ hi := by
  unfold runPhase
  cases blockPhase b s
  · simp only [phaseA]
    split
    · simp only; omega
    · exact ⟨h, h'⟩
  · exact ⟨hn, hn'⟩
  · exact ⟨h, h'⟩
  · simp only [phaseD, satSub_eq]
    split
    · simp only; omega
    · exact ⟨h, h'⟩

/-- The speed profile leaves the rate and the acceleration counter of its phase; it reprograms the step timer and
refreshes the dimming exactly if the rate changed (R158). -/
theorem speedProfile_cases (k : MotionKind) (b : MotionBlock) (s : State) :
    ((runPhase b s).adjustedRate = s.adjustedRate ∧ speedProfile k b s = runPhase b s) ∨
    ((runPhase b s).adjustedRate ≠ s.adjustedRate ∧
      speedProfile k b s =
        refreshDimming k b (setStepRate (runPhase b s).adjustedRate (runPhase b s))) := by
  unfold speedProfile
  split
  · exact .inl ⟨‹_›, rfl⟩
  · exact .inr ⟨‹_›, rfl⟩

/-- The speed profile writes the rate, the acceleration counter, the step timer, the laser intensity and the trace, and
nothing else (R158). -/
theorem speedProfile_frame (k : MotionKind) (b : MotionBlock) (s : State) :
    speedProfile k b s =
      { s with
        adjustedRate := (runPhase b s).adjustedRate, accCounter := (runPhase b s).accCounter
        stepPrescaler := (speedProfile k b s).stepPrescaler, stepCeiling := (speedProfile k b s).stepCeiling
        cyclesPerStepEvent := (speedProfile k b s).cyclesPerStepEvent, laserDuty := (speedProfile k b s).laserDuty
        trace := (speedProfile k b s).trace } := by
  rcases speedProfile_cases k b s with ⟨-, h⟩ | ⟨-, h⟩
  · rw [h, runPhase_frame]
  · rw [h, runPhase_frame]
    rfl

/-! ### Motion blocks -/

/-- The step event of the distributor as one update (R171 to R174). -/
theorem bresenhamStep_eq (b : MotionBlock) (s : State) :
    bresenhamStep b s =
      { s with
        counter := (distribute b s).counter, position := (distribute b s).position, pulses := (distribute b s).pulses
        outBits := stepVector b s ^^^ s.cfg.invertMask
        dirPin := dirPart (stepVector b s ^^^ s.cfg.invertMask)
        stepPin := stepPart (stepVector b s ^^^ s.cfg.invertMask)
        pulseArmed := true, pulseDeadline := s.now + pulseCycles s.cfg
        trace := s.trace ++
          [.dirPin (dirPart (stepVector b s ^^^ s.cfg.invertMask)),
            .stepPin (stepPart (stepVector b s ^^^ s.cfg.invertMask)), .armPulse] } := by
  rw [bresenhamStep, drivePins_eq]
  rfl

/-- The initialisation of a motion block as one update (R224). -/
theorem motionBlockInit_eq (k : MotionKind) (b : MotionBlock) (s : State) :
    motionBlockInit k b s =
      { s with
        adjustedRate := b.initialRate.toNat, accCounter := cpatHalf s.cfg
        stepPrescaler := (selectPrescaler (rateToCycles s.cfg b.initialRate.toNat)).1
        stepCeiling := (selectPrescaler (rateToCycles s.cfg b.initialRate.toNat)).2
        cyclesPerStepEvent := achievedPeriod (rateToCycles s.cfg b.initialRate.toNat)
        counter := PerAxis.all (-((eventCount b / 2 : Nat) : Int)), stepEventsCompleted := 0, pixelCounter := 0
        laserDuty := (motionBlockInit k b s).laserDuty, trace := (motionBlockInit k b s).trace } := rfl

/-- `StepEnter` of a motion block already current (R226). -/
theorem motionEnter_of_current {k : MotionKind} {b : MotionBlock} {s : State} (h : s.currentBlock.isSome = true) :
    motionEnter k b s = { bresenhamStep b s with busy := true } := by
  cases hc : s.currentBlock <;> simp_all [motionEnter, enterBlock]

/-- `StepEnter` of a motion block it fetches (R222, R224, R226). -/
theorem motionEnter_of_fetch {k : MotionKind} {b : MotionBlock} {s : State} (h : s.currentBlock = none) :
    motionEnter k b s =
      { bresenhamStep b (motionBlockInit k b (fetchBlock (k.block b) s)) with busy := true } := by
  simp [motionEnter, enterBlock, h]

/-- The raster sample of a `StepExit` writes the pixel counter, the stream, the intensity and the trace (R226). -/
theorem sampleIfRaster_frame (k : MotionKind) (b : MotionBlock) (s : State) :
    sampleIfRaster k b s =
      { s with
        pixelCounter := (sampleIfRaster k b s).pixelCounter, raster := (sampleIfRaster k b s).raster
        freeDraws := (sampleIfRaster k b s).freeDraws, laserDuty := (sampleIfRaster k b s).laserDuty
        trace := (sampleIfRaster k b s).trace } := by
  cases k
  · rfl
  · exact rasterSample_frame b s

/-- Completion writes the current block, the queue, for a raster block the stream, and the trace (R228). -/
theorem completeBlock_frame (k : MotionKind) (s : State) :
    completeBlock k s =
      { s with
        currentBlock := none, queue := s.queue.tail, raster := (completeBlock k s).raster
        freeDraws := (completeBlock k s).freeDraws, trace := (completeBlock k s).trace } := by
  cases k <;> rfl

/-- The completion test (R228). -/
theorem completeIfDone_frame (k : MotionKind) (b : MotionBlock) (s : State) :
    completeIfDone k b s =
      { s with
        currentBlock := if s.stepEventsCompleted = eventCount b then none else s.currentBlock
        queue := if s.stepEventsCompleted = eventCount b then s.queue.tail else s.queue
        raster := (completeIfDone k b s).raster, freeDraws := (completeIfDone k b s).freeDraws
        trace := (completeIfDone k b s).trace } := by
  by_cases h : s.stepEventsCompleted = eventCount b
  · simp only [completeIfDone, if_pos h]
    exact completeBlock_frame k s
  · simp only [completeIfDone, if_neg h]

/-- The frame of `StepExit` (R226): it writes the step count, the rate and its timer, the laser intensity, and on
completion the current block, the queue and the raster stream. It writes no pin, no position and no accumulator. -/
theorem motionExit_frame (k : MotionKind) (b : MotionBlock) (s : State) :
    motionExit k b s =
      { s with
        stepEventsCompleted := s.stepEventsCompleted + 1
        adjustedRate := (runPhase b (countEvent s)).adjustedRate
        accCounter := (runPhase b (countEvent s)).accCounter
        stepPrescaler := (speedProfile k b (countEvent s)).stepPrescaler
        stepCeiling := (speedProfile k b (countEvent s)).stepCeiling
        cyclesPerStepEvent := (speedProfile k b (countEvent s)).cyclesPerStepEvent
        laserDuty := (motionExit k b s).laserDuty, pixelCounter := (motionExit k b s).pixelCounter
        raster := (motionExit k b s).raster, freeDraws := (motionExit k b s).freeDraws
        currentBlock := if s.stepEventsCompleted + 1 = eventCount b then none else s.currentBlock
        queue := if s.stepEventsCompleted + 1 = eventCount b then s.queue.tail else s.queue
        busy := false, trace := (motionExit k b s).trace } := by
  obtain ⟨p, c, y, d, tr, hp⟩ : ∃ p c y d tr, speedProfile k b (countEvent s) =
      { countEvent s with
        adjustedRate := (runPhase b (countEvent s)).adjustedRate
        accCounter := (runPhase b (countEvent s)).accCounter
        stepPrescaler := p, stepCeiling := c, cyclesPerStepEvent := y, laserDuty := d, trace := tr } :=
    ⟨_, _, _, _, _, speedProfile_frame k b (countEvent s)⟩
  obtain ⟨x, ra, fr, d', tr', hs⟩ : ∃ x ra fr d' tr', sampleIfRaster k b (speedProfile k b (countEvent s)) =
      { speedProfile k b (countEvent s) with
        pixelCounter := x, raster := ra, freeDraws := fr, laserDuty := d', trace := tr' } :=
    ⟨_, _, _, _, _, sampleIfRaster_frame k b _⟩
  obtain ⟨ra', fr', tr'', hc⟩ : ∃ ra' fr' tr'',
      completeIfDone k b (sampleIfRaster k b (speedProfile k b (countEvent s))) =
        { sampleIfRaster k b (speedProfile k b (countEvent s)) with
          currentBlock := if (sampleIfRaster k b (speedProfile k b (countEvent s))).stepEventsCompleted = eventCount b
            then none else (sampleIfRaster k b (speedProfile k b (countEvent s))).currentBlock
          queue := if (sampleIfRaster k b (speedProfile k b (countEvent s))).stepEventsCompleted = eventCount b
            then (sampleIfRaster k b (speedProfile k b (countEvent s))).queue.tail
            else (sampleIfRaster k b (speedProfile k b (countEvent s))).queue
          raster := ra', freeDraws := fr', trace := tr'' } :=
    ⟨_, _, _, completeIfDone_frame k b _⟩
  unfold motionExit
  rw [hc, hs, hp]
  rfl

/-- A `StepExit` leaves the pixel counter no higher, or below `pixel_steps` (R203). -/
theorem motionExit_pixelCounter (k : MotionKind) (b : MotionBlock) (s : State) :
    (motionExit k b s).pixelCounter ≤ s.pixelCounter ∨ (motionExit k b s).pixelCounter < b.pixelSteps.toNat := by
  have hx : (motionExit k b s).pixelCounter = (sampleIfRaster k b (speedProfile k b (countEvent s))).pixelCounter := by
    unfold motionExit
    rw [completeIfDone_frame]
  have hp : (speedProfile k b (countEvent s)).pixelCounter = s.pixelCounter := by
    rw [speedProfile_frame]
    rfl
  rw [hx, ← hp]
  generalize speedProfile k b (countEvent s) = u
  cases k
  · exact .inl (Nat.le_refl _)
  · simp only [sampleIfRaster, rasterSample]
    split
    · split
      · exact .inl (Nat.zero_le _)
      · exact .inr (by simp only; omega)
    · exact .inl (Nat.le_refl _)

/-- The end of an assist block as one update (R230). -/
theorem finishAssist_eq (s : State) :
    finishAssist s =
      { s with
        currentBlock := none, queue := s.queue.tail, busy := false
        trace := s.trace ++ [.plannerDiscardCurrentBlock] } := rfl

/-! ### Homing -/

/-- The start of a homing pass as one update (R258). -/
theorem startPass_eq (reverse : Bool) (s : State) :
    startPass reverse s =
      { s with
        dirPin := homingDirBits s.cfg reverse
        homing := some ⟨reverse, 0b111#3, PerAxis.all homingOvershoot, s.now⟩
        trace := s.trace ++ [.dirPin (homingDirBits s.cfg reverse)] } := rfl

/-- A homing iteration pulses the axes still active, or ends its pass (R259). -/
theorem homingIteration_cases (h : Homing) (s : State) :
    ((homingCheck h s).active ≠ 0 ∧
      homingIteration h s =
        { s with
          homing := some { homingCheck h s with
            resumeAt := s.now + (pulseCycles s.cfg + homingWaitCycles s.cfg) }
          stepPin := stepPart s.cfg.invertMask
          trace := s.trace ++
            [.stepPin ((homingCheck h s).active ^^^ stepPart s.cfg.invertMask),
              .stepPin (stepPart s.cfg.invertMask)] }) ∨
    ((homingCheck h s).active = 0 ∧ h.reverse = false ∧ homingIteration h s = startPass true s) ∨
    ((homingCheck h s).active = 0 ∧ h.reverse = true ∧
      homingIteration h s = { s with position := ⟨0, 0, 0⟩, homing := none }) := by
  unfold homingIteration
  by_cases ha : (homingCheck h s).active = 0
  · cases hr : h.reverse <;> simp [ha, endPass, hr]
  · exact .inl ⟨ha, by rw [if_neg ha]; simp [homingPulse, setStepPin, emit]⟩

/-- The check of an iteration leaves an axis active exactly if `stillActive` says so (R259). -/
theorem homingCheck_active (h : Homing) (s : State) (a : Axis) :
    (homingCheck h s).active.getLsbD a.index = stillActive h s a := by
  have key : ∀ x y z : Bool,
      (stepPart (stepBits ⟨x, y, z⟩)).getLsbD 0 = x ∧ (stepPart (stepBits ⟨x, y, z⟩)).getLsbD 1 = y ∧
        (stepPart (stepBits ⟨x, y, z⟩)).getLsbD 2 = z := by decide
  obtain ⟨h0, h1, h2⟩ := key (stillActive h s .x) (stillActive h s .y) (stillActive h s .z)
  cases a
  · exact h0
  · exact h1
  · exact h2

/-! ### Reset -/

/-- The registers `init()` writes beside the output registers, as one update (R340). -/
theorem initOutputs_eq (s : State) :
    initOutputs s =
      { s with
        laserDuty := 0, laserPin := false, dirPin := dirPart s.cfg.invertMask, stepPin := stepPart s.cfg.invertMask
        airAssist := false, aux1Assist := false, aux2Assist := false
        trace := s.trace ++
          [.laserDuty 0, .laserPin false, .dirPin (dirPart s.cfg.invertMask), .stepPin (stepPart s.cfg.invertMask),
            .airAssist false, .aux1Assist false, .aux2Assist false] } := by
  simp [initOutputs, controlAux2Assist, controlAux1Assist, controlAirAssist, setStepPin, setDirPin, setLaserPin,
    controlLaserIntensity, emit]

/-- `init()` as one update (R340): the output registers over the other registers over the step timer. -/
theorem initialise_eq (s : State) :
    initialise s = initOutputs (initRegisters (setStepRate s.cfg.minimumStepsPerMinute s)) := rfl

end Sys2Proof.Machine
end

