-- ==== Sys2Proof/Laws/PerInstr.lean ====
section
/-! SUPPORT. What holds of each instruction as syntax: the length and the first byte of its encoding (R101, R102,
R108). -/

namespace Sys2Proof.Laws.EncodeShape

/-- R101, R102: the record of a block is 48 bytes long and its type code is below 8. R108: a host operation is as long
as the table gives its code. -/
def Statement (i : Instr) : Prop :=
  match i.space with
  | .blockQueue => (encode i).length = blockLength ∧ (byteAt (encode i) 0).toNat < 8
  | .hostPort => hostLength (byteAt (encode i) 0) = some (encode i).length

theorem line (b : MotionBlock) : Statement (.line b) := ⟨rfl, Nat.zero_lt_succ 7⟩

theorem rasterLine (b : MotionBlock) : Statement (.rasterLine b) := ⟨rfl, Nat.one_lt_succ_succ 6⟩

theorem airAssistEnable : Statement .airAssistEnable := ⟨rfl, by decide⟩

theorem airAssistDisable : Statement .airAssistDisable := ⟨rfl, by decide⟩

theorem aux1Enable : Statement .aux1Enable := ⟨rfl, by decide⟩

theorem aux1Disable : Statement .aux1Disable := ⟨rfl, by decide⟩

theorem aux2Enable : Statement .aux2Enable := ⟨rfl, by decide⟩

theorem aux2Disable : Statement .aux2Disable := ⟨rfl, by decide⟩

theorem init : Statement .init := rfl

theorem startProcessing : Statement .startProcessing := rfl

theorem stopProcessing : Statement .stopProcessing := rfl

theorem processing : Statement .processing := rfl

theorem requestStop (kind : StopStatus) : Statement (.requestStop kind) := by cases kind <;> rfl

theorem stopStatus : Statement .stopStatus := rfl

theorem stopRequested : Statement .stopRequested := rfl

theorem stopResume : Statement .stopResume := rfl

theorem getPositionX : Statement .getPositionX := rfl

theorem getPositionY : Statement .getPositionY := rfl

theorem getPositionZ : Statement .getPositionZ := rfl

theorem setPosition (x y z : F64) : Statement (.setPosition x y z) := rfl

theorem homingCycle : Statement .homingCycle := rfl

theorem controlLaserIntensity (duty : Byte) : Statement (.controlLaserIntensity duty) := rfl

end Sys2Proof.Laws.EncodeShape
end

