-- ==== Sys2Proof/Laws/Timer.lean ====
section
/-! SUPPORT. The six tiers of the prescaler selection (R134), once, as the ranges of the requested period. -/

namespace Sys2Proof.Machine

/-- R134: the tier of every requested period. -/
theorem selectPrescaler_tiers (c : Nat) :
    (c ≤ 65535 ∧ selectPrescaler c = (.div1, BitVec.ofNat 16 c)) ∨
    (65536 ≤ c ∧ c ≤ 524287 ∧ selectPrescaler c = (.div8, BitVec.ofNat 16 (c >>> 3))) ∨
    (524288 ≤ c ∧ c ≤ 4194303 ∧ selectPrescaler c = (.div64, BitVec.ofNat 16 (c >>> 6))) ∨
    (4194304 ≤ c ∧ c ≤ 16777215 ∧ selectPrescaler c = (.div256, BitVec.ofNat 16 (c >>> 8))) ∨
    (16777216 ≤ c ∧ c ≤ 67108863 ∧ selectPrescaler c = (.div1024, BitVec.ofNat 16 (c >>> 10))) ∨
    (67108864 ≤ c ∧ selectPrescaler c = (.div1024, 0xFFFF#16)) := by
  simp only [selectPrescaler, prescalerTiers, selectFrom, Prescaler.shift, ceilingMax, Nat.shiftRight_eq_div_pow]
  by_cases h0 : c ≤ 65535
  · left; simp [h0]
  by_cases h1 : c ≤ 524287
  · right; left
    have a1 : ¬c / 2 ^ 0 ≤ 65535 := by omega
    have a2 : c / 2 ^ 3 ≤ 65535 := by omega
    exact ⟨by omega, h1, by rw [if_neg a1, if_pos a2]⟩
  by_cases h2 : c ≤ 4194303
  · right; right; left
    have a1 : ¬c / 2 ^ 0 ≤ 65535 := by omega
    have a2 : ¬c / 2 ^ 3 ≤ 65535 := by omega
    have a3 : c / 2 ^ 6 ≤ 65535 := by omega
    exact ⟨by omega, h2, by rw [if_neg a1, if_neg a2, if_pos a3]⟩
  by_cases h3 : c ≤ 16777215
  · right; right; right; left
    have a1 : ¬c / 2 ^ 0 ≤ 65535 := by omega
    have a2 : ¬c / 2 ^ 3 ≤ 65535 := by omega
    have a3 : ¬c / 2 ^ 6 ≤ 65535 := by omega
    have a4 : c / 2 ^ 8 ≤ 65535 := by omega
    exact ⟨by omega, h3, by rw [if_neg a1, if_neg a2, if_neg a3, if_pos a4]⟩
  by_cases h4 : c ≤ 67108863
  · right; right; right; right; left
    have a1 : ¬c / 2 ^ 0 ≤ 65535 := by omega
    have a2 : ¬c / 2 ^ 3 ≤ 65535 := by omega
    have a3 : ¬c / 2 ^ 6 ≤ 65535 := by omega
    have a4 : ¬c / 2 ^ 8 ≤ 65535 := by omega
    have a5 : c / 2 ^ 10 ≤ 65535 := by omega
    exact ⟨by omega, h4, by rw [if_neg a1, if_neg a2, if_neg a3, if_neg a4, if_pos a5]⟩
  · right; right; right; right; right
    have a1 : ¬c / 2 ^ 0 ≤ 65535 := by omega
    have a2 : ¬c / 2 ^ 3 ≤ 65535 := by omega
    have a3 : ¬c / 2 ^ 6 ≤ 65535 := by omega
    have a4 : ¬c / 2 ^ 8 ≤ 65535 := by omega
    have a5 : ¬c / 2 ^ 10 ≤ 65535 := by omega
    exact ⟨by omega, by rw [if_neg a1, if_neg a2, if_neg a3, if_neg a4, if_neg a5]⟩

/-- R136: ceiling 0 is what a period of 0 is programmed as, and no other. -/
theorem selectPrescaler_ceiling_eq_zero (c : Nat) : (selectPrescaler c).2 = 0 ↔ c = 0 := by
  have key : ∀ n : Nat, n < 65536 → (BitVec.ofNat 16 n = 0 ↔ n = 0) := by
    intro n hn
    constructor
    · intro h
      simpa [Nat.mod_eq_of_lt hn] using congrArg BitVec.toNat h
    · rintro rfl
      rfl
  rcases selectPrescaler_tiers c with ⟨h, e⟩ | ⟨h1, h2, e⟩ | ⟨h1, h2, e⟩ | ⟨h1, h2, e⟩ | ⟨h1, h2, e⟩ | ⟨h, e⟩ <;> rw [e]
  · exact key c (by omega)
  all_goals
    simp only [Nat.shiftRight_eq_div_pow]
    rw [key _ (by omega)]
    omega

/-- A prescaler's value and its shift agree (R10): `value = 2 ^ shift`. -/
theorem prescaler_value_eq_shift (p : Prescaler) : p.value = 2 ^ p.shift := by cases p <;> rfl

end Sys2Proof.Machine
end

