-- ==== Sys2Proof/Laws/Steps.lean ====
section
/-! SUPPORT. What a step can do, said once: one inversion lemma for each of `exec`, the invocation of the step timer,
`perform`, the core's own next event and `step`. Every statement about all steps follows from these by cases. -/

namespace Sys2Proof.Machine

/-! ### Instructions -/

/-- An event that may program the step timer goes on if the timer has a period (R136). -/
theorem goOn_of_period {t : State} (h : t.stepCeiling ≠ 0) : goOn t = .next t := if_neg h

/-- What an event that answered a next state left. -/
theorem goOn_next {t u : State} (h : goOn t = .next u) : u.stepCeiling ≠ 0 ∧ u = t := by
  unfold goOn at h
  split at h
  · cases h
  · rename_i hc
    obtain rfl : t = u := by simpa using h
    exact ⟨hc, rfl⟩

/-- A motion block that divides by no zero runs the next part of its step event (R226). -/
theorem exec_motion {k : MotionKind} {b : MotionBlock} (h : Dimmable k b) (s : State) :
    exec (k.block b).toInstr s = motionStep k b s := by
  cases k
  · exact if_neg (h rfl)
  · rfl

/-- With `busy = 0` the next part is the end of the `StepEnter`. -/
theorem motionStep_enter {s : State} (h : s.busy = false) (k : MotionKind) (b : MotionBlock) :
    motionStep k b s = goOn (motionEnter k b s) := by
  simp [motionStep, h]

/-- With `busy = 1` the next part is the `StepExit`, if the event can be counted. -/
theorem motionStep_exit {s : State} (h : s.busy = true) (hf : CountFits s) (k : MotionKind) (b : MotionBlock) :
    motionStep k b s = goOn (motionExit k b s) := by
  unfold motionStep
  rw [if_pos h, if_pos hf]

/-- A step event that cannot be counted is refused (R352, U11). -/
theorem motionStep_overflow {s : State} (h : s.busy = true) (hf : ¬CountFits s) (k : MotionKind) (b : MotionBlock) :
    motionStep k b s = .refused .stepCountOverflow := by
  unfold motionStep
  rw [if_pos h, if_neg hf]

/-- What the next part of a step event did when it answered a next state. -/
theorem motionStep_next {k : MotionKind} {b : MotionBlock} {s t : State} (h : motionStep k b s = .next t) :
    t.stepCeiling ≠ 0 ∧
      ((s.busy = false ∧ t = motionEnter k b s) ∨ (s.busy = true ∧ CountFits s ∧ t = motionExit k b s)) := by
  cases hb : s.busy
  · rw [motionStep_enter hb] at h
    exact ⟨(goOn_next h).1, .inl ⟨rfl, (goOn_next h).2⟩⟩
  · by_cases hf : CountFits s
    · rw [motionStep_exit hb hf] at h
      exact ⟨(goOn_next h).1, .inr ⟨rfl, hf, (goOn_next h).2⟩⟩
    · rw [motionStep_overflow hb hf] at h
      cases h

/-- A `LINE` that divides by zero is refused (R197, U6). -/
theorem exec_line_of_zero {b : MotionBlock} (h : b.nominalRate = 0) (s : State) :
    exec (.line b) s = .refused .zeroNominalRate := if_pos h

/-- What a motion block that answers a next state did. -/
theorem exec_motion_next {k : MotionKind} {b : MotionBlock} {s t : State} (h : exec (k.block b).toInstr s = .next t) :
    Dimmable k b ∧ t.stepCeiling ≠ 0 ∧
      ((s.busy = false ∧ t = motionEnter k b s) ∨ (s.busy = true ∧ CountFits s ∧ t = motionExit k b s)) := by
  have hd : Dimmable k b := by
    rintro rfl hz
    have h' : exec (.line b) s = .next t := h
    rw [exec_line_of_zero hz] at h'
    cases h'
  rw [exec_motion hd] at h
  exact ⟨hd, motionStep_next h⟩

/-- The rate a `StepExit` leaves (R154 to R157), phase by phase. -/
theorem runPhase_adjustedRate (b : MotionBlock) (s : State) :
    (runPhase b (countEvent s)).adjustedRate = rateAfterExit b s := by
  have hA : ∀ u : State, (phaseA b u).adjustedRate =
      if cpat u.cfg < u.accCounter + u.cyclesPerStepEvent then min (u.adjustedRate + b.rateDelta.toNat) b.nominalRate.toNat
      else u.adjustedRate := by
    intro u
    by_cases h : cpat u.cfg < u.accCounter + u.cyclesPerStepEvent <;> simp [phaseA, ticks, tickDue, tick, h]
  have hD : ∀ u : State, (phaseD b u).adjustedRate =
      if cpat u.cfg < u.accCounter + u.cyclesPerStepEvent then max (u.adjustedRate - b.rateDelta.toNat) b.finalRate.toNat
      else u.adjustedRate := by
    intro u
    by_cases h : cpat u.cfg < u.accCounter + u.cyclesPerStepEvent <;> simp [phaseD, ticks, tickDue, tick, satSub_eq, h]
  have hp : blockPhase b (countEvent s) =
      phaseOf b.accelerateUntil.toNat b.decelerateAfter.toNat (s.stepEventsCompleted + 1) := rfl
  unfold runPhase rateAfterExit
  rw [hp]
  unfold phaseOf
  by_cases h1 : s.stepEventsCompleted + 1 < b.accelerateUntil.toNat
  · simp only [if_pos h1]
    exact hA _
  by_cases h2 : s.stepEventsCompleted + 1 < b.decelerateAfter.toNat
  · simp only [if_neg h1, if_pos h2]
    rfl
  by_cases h3 : s.stepEventsCompleted + 1 = b.decelerateAfter.toNat
  · simp only [if_neg h1, if_neg h2, if_pos h3]
    rfl
  · simp only [if_neg h1, if_neg h2, if_neg h3]
    exact hD _

/-- Programming the step timer for a rate leaves it a period exactly if the rate has one (R132, R136). -/
theorem setStepRate_ceiling_ne_zero (r : Nat) (s : State) : (setStepRate r s).stepCeiling ≠ 0 ↔ HasPeriod s.cfg r := by
  rw [setStepRate_eq]
  exact not_congr (selectPrescaler_ceiling_eq_zero _)

/-- A `StepExit` leaves the step timer a period exactly if `ExitHasPeriod` says so (R158, R136). -/
theorem motionExit_ceiling_ne_zero (k : MotionKind) (b : MotionBlock) (s : State) :
    (motionExit k b s).stepCeiling ≠ 0 ↔ ExitHasPeriod b s := by
  have hx : (motionExit k b s).stepCeiling = (speedProfile k b (countEvent s)).stepCeiling := by
    rw [motionExit_frame]
  have hs : (countEvent s).adjustedRate = s.adjustedRate := rfl
  rw [hx]
  unfold ExitHasPeriod
  rcases speedProfile_cases k b (countEvent s) with ⟨h, e⟩ | ⟨h, e⟩ <;> rw [runPhase_adjustedRate, hs] at h
  · rw [e, if_pos h, runPhase_frame]
    exact Iff.rfl
  · have hc : (runPhase b (countEvent s)).cfg = s.cfg := by
      rw [runPhase_frame]
      rfl
    rw [e, if_neg h, refreshDimming_eq, runPhase_adjustedRate, ← hc]
    exact setStepRate_ceiling_ne_zero _ _

/-- A block that answers a next state is a motion block, or an assist block that wrote one output and ended (R225,
R230). -/
theorem exec_block_next {blk : Block} {s t : State} (h : exec blk.toInstr s = .next t) :
    (∃ k b, blk = MotionKind.block k b ∧ Dimmable k b ∧ t.stepCeiling ≠ 0 ∧
      ((s.busy = false ∧ t = motionEnter k b s) ∨ (s.busy = true ∧ CountFits s ∧ t = motionExit k b s))) ∨
    (∃ v, t = finishAssist (controlAirAssist v s)) ∨ (∃ v, t = finishAssist (controlAux1Assist v s)) ∨
    ∃ v, t = finishAssist (controlAux2Assist v s) := by
  cases blk with
  | line b => exact .inl ⟨.line, b, rfl, exec_motion_next (k := .line) h⟩
  | rasterLine b => exact .inl ⟨.raster, b, rfl, exec_motion_next (k := .raster) h⟩
  | airAssistEnable => exact .inr (.inl ⟨true, (Host.Outcome.next.inj h).symm⟩)
  | airAssistDisable => exact .inr (.inl ⟨false, (Host.Outcome.next.inj h).symm⟩)
  | aux1Enable => exact .inr (.inr (.inl ⟨true, (Host.Outcome.next.inj h).symm⟩))
  | aux1Disable => exact .inr (.inr (.inl ⟨false, (Host.Outcome.next.inj h).symm⟩))
  | aux2Enable => exact .inr (.inr (.inr ⟨true, (Host.Outcome.next.inj h).symm⟩))
  | aux2Disable => exact .inr (.inr (.inr ⟨false, (Host.Outcome.next.inj h).symm⟩))

/-- What the host operation `i` did to `s` when it answered `t`. -/
inductive HostEffect (s : State) : Instr → State → Prop
  | init (h : (initialise s).stepCeiling ≠ 0) : HostEffect s .init (initialise s)
  | startProcessing : HostEffect s .startProcessing (Machine.startProcessing s)
  | stopProcessing : HostEffect s .stopProcessing (Machine.stopProcessing s)
  | processing : HostEffect s .processing (returnResult (boolResult s.processingFlag) s)
  | requestStop (kind : StopStatus) : HostEffect s (.requestStop kind) (Machine.requestStop kind s)
  | stopStatus : HostEffect s .stopStatus (returnResult (.u8 s.stopStatus.code) s)
  | stopRequested : HostEffect s .stopRequested (returnResult (boolResult s.stopRequested) s)
  | stopResume : HostEffect s .stopResume (Machine.stopResume s)
  | getPositionX : HostEffect s .getPositionX (returnResult (.f64 (positionMm s .x)) s)
  | getPositionY : HostEffect s .getPositionY (returnResult (.f64 (positionMm s .y)) s)
  | getPositionZ : HostEffect s .getPositionZ (returnResult (.f64 (positionMm s .z)) s)
  | setPosition (x y z : F64) : HostEffect s (.setPosition x y z) (Machine.setPosition x y z s)
  | homingCycle (h : s.processingFlag = false) : HostEffect s .homingCycle (startPass false s)
  | controlLaserIntensity (v : Byte) :
      HostEffect s (.controlLaserIntensity v) (Machine.controlLaserIntensity v s)

/-- A host operation that answers a next state met its enabling condition and had its one effect (R91, R300). -/
theorem exec_hostPort_next {i : Instr} {s t : State} (hi : i.space = .hostPort) (h : exec i s = .next t) :
    (s.busy = false ∧ s.homing = none) ∧ HostEffect s i t := by
  have key : ∀ {f : State → State} {j : Instr}, hostOperation f s = .next t → HostEffect s j (f s) →
      (s.busy = false ∧ s.homing = none) ∧ HostEffect s j t := by
    intro f j hf he
    obtain ⟨hr, rfl⟩ := hostOperation_next hf
    exact ⟨hr, he⟩
  cases i <;> first | (cases hi; done) | skip
  case init =>
    simp only [exec, execInit] at h
    split at h
    · rename_i hr
      obtain ⟨hc, rfl⟩ := goOn_next h
      exact ⟨(hostReady_iff s).1 hr, .init hc⟩
    · cases h
  case startProcessing => exact key h .startProcessing
  case stopProcessing => exact key h .stopProcessing
  case processing => exact key h .processing
  case requestStop kind => exact key h (.requestStop kind)
  case stopStatus => exact key h .stopStatus
  case stopRequested => exact key h .stopRequested
  case stopResume => exact key h .stopResume
  case getPositionX => exact key h .getPositionX
  case getPositionY => exact key h .getPositionY
  case getPositionZ => exact key h .getPositionZ
  case setPosition x y z =>
    simp only [exec, execSetPosition] at h
    split at h
    · exact key h (.setPosition x y z)
    · cases h
  case homingCycle =>
    simp only [exec, execHomingCycle] at h
    split at h
    · cases h
    · rename_i hp
      obtain ⟨⟨hb, hh⟩, rfl⟩ := hostOperation_next h
      refine ⟨⟨hb, hh⟩, .homingCycle ?_⟩
      simpa [hostReady, hb, hh] using hp
  case controlLaserIntensity v => exact key h (.controlLaserIntensity v)

/-- Of the bytes on the host port the decoder makes host operations only (R109). -/
theorem space_of_decode_hostPort {bytes : List Byte} {i : Instr} (h : decode .hostPort bytes = .ok i) :
    i.space = .hostPort := by
  simp only [decode, decodeHostOp] at h
  split at h
  · cases h
  · split at h
    · unfold decodeHostCode decodeRequestStop decodeSetPosition at h
      split at h <;> (try split at h) <;> (try split at h) <;> cases h <;> rfl
    · cases h

/-! ### The invocation of the step timer -/

/-- A block is run when it is fetched exactly if the machine is not `strict` or the block is well-formed (R113). -/
theorem blockRefusal_eq_none (c : Config) (blk : Block) : blockRefusal c blk = none ↔ Runs c blk := by
  unfold blockRefusal Runs
  cases c.strict <;> cases blk.toInstr.wellFormed c <;> simp

/-- A fetched block that answers a next state was not refused. -/
theorem runFetched_next {blk : Block} {s t : State} (h : runFetched blk s = .next t) :
    blockRefusal s.cfg blk = none ∧ exec blk.toInstr s = .next t := by
  unfold runFetched at h
  split at h
  · exact ⟨‹_›, h⟩
  · cases h

/-- Where the dispatch of an invocation ends (R222, R223, R225). -/
theorem dispatchBlock_next {s t : State} (h : dispatchBlock s = .next t) :
    (∃ blk, s.currentBlock = some blk ∧ exec blk.toInstr s = .next t) ∨
    (s.currentBlock = none ∧ s.queue = [] ∧ t = underrun s) ∨
    ∃ record rest blk, s.currentBlock = none ∧ s.queue = record :: rest ∧ decodeBlock record = .ok blk ∧
      blockRefusal s.cfg blk = none ∧ exec blk.toInstr s = .next t := by
  unfold dispatchBlock at h
  split at h
  · rename_i blk hb
    exact .inl ⟨blk, hb, h⟩
  · rename_i hb
    cases hq : s.queue with
    | nil =>
      simp only [blockPeek, hq, List.head?_nil] at h
      exact .inr (.inl ⟨hb, rfl, by simpa using h.symm⟩)
    | cons record rest =>
      simp only [blockPeek, hq, List.head?_cons] at h
      split at h
      · rename_i blk hd
        exact .inr (.inr ⟨record, rest, blk, hb, rfl, hd, runFetched_next h⟩)
      · cases h

/-- The four ways an invocation goes (R219, R220, R229). -/
theorem stepEnter_next {s t : State} (h : stepEnter s = .next t) :
    (s.stopRequested = true ∧ t = takeStop s) ∨
    (s.stopRequested = false ∧ ∃ kind, limitHit s = some kind ∧ t = limitReturn kind (interlockCut s)) ∨
    (s.stopRequested = false ∧ limitHit s = none ∧ dispatchBlock (beamStepPulse (interlockCut s)) = .next t) := by
  unfold stepEnter at h
  split at h
  · rename_i hs
    exact .inl ⟨hs, by simpa using h.symm⟩
  · rename_i hs
    simp only [Bool.not_eq_true] at hs
    split at h
    · rename_i kind hl
      exact .inr (.inl ⟨hs, kind, hl, by simpa using h.symm⟩)
    · rename_i hl
      exact .inr (.inr ⟨hs, hl, h⟩)

/-- Steps 4 and 5 before the dispatch write the laser and beam registers and the trace, and nothing else. -/
theorem preamble_frame (s : State) :
    beamStepPulse (interlockCut s) =
      { s with
        laserDuty := (beamStepPulse (interlockCut s)).laserDuty
        pwmCounter := (beamStepPulse (interlockCut s)).pwmCounter
        laserPin := (beamStepPulse (interlockCut s)).laserPin
        beamPrescaler := (beamStepPulse (interlockCut s)).beamPrescaler
        beamCeiling := (beamStepPulse (interlockCut s)).beamCeiling
        beamArmed := (beamStepPulse (interlockCut s)).beamArmed
        beamDeadline := (beamStepPulse (interlockCut s)).beamDeadline
        trace := (beamStepPulse (interlockCut s)).trace } := by
  obtain ⟨d, tr, hc⟩ : ∃ d tr, interlockCut s = { s with laserDuty := d, trace := tr } :=
    ⟨_, _, (interlockCut_frame s).1⟩
  rw [hc, beamStepPulse_frame]

/-! ### Events -/

/-- What an enabled event did (R300). -/
inductive EventEffect (s t : State) : Event → Prop
  | droppedTick (he : stepTimerEnabled s = true) (hc : s.stepCeiling ≠ 0) (hb : s.busy = true)
      (ht : t = stampFire s) : EventEffect s t .stepTimerFire
  | invocation (he : stepTimerEnabled s = true) (hc : s.stepCeiling ≠ 0) (hb : s.busy = false)
      (ht : stepEnter (stampFire s) = .next t) : EventEffect s t .stepTimerFire
  | stepExit (k : MotionKind) (b : MotionBlock) (hb : s.busy = true) (hc : s.currentBlock = some (k.block b))
      (hd : Dimmable k b) (hf : CountFits s) (hn : t.stepCeiling ≠ 0) (ht : t = motionExit k b s) : EventEffect s t .stepExit
  | pulseResetFire (ha : s.pulseArmed = true) (ht : t = pulseReset (advanceTo .pulseResetFire s)) :
      EventEffect s t .pulseResetFire
  | beamResetFire (ha : s.beamArmed = true) (ht : t = beamReset (advanceTo .beamResetFire s)) :
      EventEffect s t .beamResetFire
  | homingIter (h : Homing) (hh : s.homing = some h) (ht : t = homingIteration h (advanceTo .homingIter s)) :
      EventEffect s t .homingIter
  | hostOp (bytes : List Byte) (i : Instr) (hd : decode .hostPort bytes = .ok i) (hb : s.busy = false)
      (hh : s.homing = none) (ht : HostEffect s i t) : EventEffect s t (.hostOp bytes)
  | plannerPush (record : List Byte) (hl : record.length = blockLength) (ht : t = Machine.plannerPush record s) :
      EventEffect s t (.plannerPush record)
  | rasterPush (byte : Byte) (ht : t = Machine.rasterPush byte s) : EventEffect s t (.rasterPush byte)
  | senseChange (sense : Sense) (ht : t = { s with sense := sense }) : EventEffect s t (.senseChange sense)
  | clockAdvance (cycles : Nat) (ht : t = { s with now := s.now + cycles }) : EventEffect s t (.clockAdvance cycles)

/-- A disabled event answers no next state (R300). -/
theorem whenEnabled_next {enabled : Bool} {o : Host.Outcome State Fault Refusal} {t : State}
    (h : whenEnabled enabled o = .next t) : enabled = true ∧ o = .next t := by
  unfold whenEnabled at h
  split at h
  · exact ⟨‹_›, h⟩
  · cases h

/-- The block a `motionCurrent` state executes. -/
theorem currentBlock_of_motionCurrent {s : State} (h : motionCurrent s = true) :
    ∃ (k : MotionKind) (b : MotionBlock), s.currentBlock = some (k.block b) := by
  unfold motionCurrent at h
  split at h
  · rename_i b hb
    exact ⟨.line, b, hb⟩
  · rename_i b hb
    exact ⟨.raster, b, hb⟩
  · cases h

/-- Every event that answers a next state had its effect. -/
theorem perform_next {e : Event} {s t : State} (h : perform e s = .next t) : EventEffect s t e := by
  cases e with
  | stepTimerFire =>
    obtain ⟨he, h⟩ := whenEnabled_next h
    unfold stepTimerFire at h
    split at h
    · cases h
    · rename_i hc
      split at h
      · exact .droppedTick he hc ‹_› (by simpa using h.symm)
      · rename_i hb
        exact .invocation he hc (by simpa using hb) h
  | stepExit =>
    obtain ⟨he, h⟩ := whenEnabled_next h
    simp only [stepExitEnabled, Bool.and_eq_true] at he
    obtain ⟨k, b, hc⟩ := currentBlock_of_motionCurrent he.2
    simp only [stepExit, hc] at h
    obtain ⟨hd, hn, ⟨hb, -⟩ | ⟨hb, hf, ht⟩⟩ := exec_motion_next h
    · rw [he.1] at hb
      cases hb
    · exact .stepExit k b hb hc hd hf hn ht
  | pulseResetFire =>
    obtain ⟨he, h⟩ := whenEnabled_next h
    exact .pulseResetFire he (by simpa using h.symm)
  | beamResetFire =>
    obtain ⟨he, h⟩ := whenEnabled_next h
    exact .beamResetFire he (by simpa using h.symm)
  | homingIter =>
    simp only [perform, homingIter] at h
    split at h
    · rename_i l hl
      exact .homingIter l hl (by simpa using h.symm)
    · cases h
  | hostOp bytes =>
    simp only [perform, hostOp] at h
    split at h
    · rename_i i hd
      obtain ⟨⟨hb, hh⟩, ht⟩ := exec_hostPort_next (space_of_decode_hostPort hd) h
      exact .hostOp bytes i hd hb hh ht
    · cases h
  | plannerPush record =>
    simp only [perform, pushRecord] at h
    split at h
    · exact .plannerPush record ‹_› (by simpa using h.symm)
    · cases h
  | rasterPush byte => exact .rasterPush byte (by simpa [perform] using h.symm)
  | senseChange sense => exact .senseChange sense (by simpa [perform] using h.symm)
  | clockAdvance cycles => exact .clockAdvance cycles (by simpa [perform] using h.symm)

/-! ### The core's own next event -/

/-- The earliest of the candidates is one of them and is enabled. -/
theorem earliest_mem {s : State} {e : Event} : ∀ {l : List (Bool × Event)}, earliest s l = some e → (true, e) ∈ l
  | (enabled, f) :: rest, h => by
    unfold earliest at h
    split at h
    · rename_i he
      subst he
      unfold earlier at h
      split at h
      · cases h
        exact .head _
      · rename_i g hg
        split at h
        · cases h
          exact .head _
        · cases h
          exact .tail _ (earliest_mem hg)
    · exact .tail _ (earliest_mem h)

/-- What the core takes by itself is the rest of a step event, or an enabled timer event (R313). -/
theorem ownNextEvent_some {s : State} {e : Event} (h : ownNextEvent s = some e) :
    (e = .stepExit ∧ stepExitEnabled s = true) ∨ (e = .pulseResetFire ∧ s.pulseArmed = true) ∨
    (e = .beamResetFire ∧ s.beamArmed = true) ∨ (e = .homingIter ∧ s.homing.isSome = true) ∨
    (e = .stepTimerFire ∧ stepTimerEnabled s = true) := by
  unfold ownNextEvent at h
  split at h
  · cases h
    exact .inl ⟨rfl, ‹_›⟩
  · have hm := earliest_mem h
    simp only [timerCandidates, List.mem_cons, Prod.mk.injEq, List.not_mem_nil, or_false] at hm
    rcases hm with ⟨ha, rfl⟩ | ⟨ha, rfl⟩ | ⟨ha, rfl⟩ | ⟨ha, rfl⟩
    · exact .inr (.inl ⟨rfl, ha.symm⟩)
    · exact .inr (.inr (.inl ⟨rfl, ha.symm⟩))
    · exact .inr (.inr (.inr (.inl ⟨rfl, ha.symm⟩)))
    · exact .inr (.inr (.inr (.inr ⟨rfl, ha.symm⟩)))

/-- Of the candidates that are enabled, none is due before the earliest (R313). -/
theorem earliest_le {s : State} {f : Event} :
    ∀ {l : List (Bool × Event)}, (true, f) ∈ l → ∃ e, earliest s l = some e ∧ dueTime e s ≤ dueTime f s
  | (enabled, g) :: rest, h => by
    have ih : (true, f) ∈ rest → ∃ e, earliest s rest = some e ∧ dueTime e s ≤ dueTime f s := earliest_le
    unfold earliest earlier
    cases enabled
    · simp only [List.mem_cons, Prod.mk.injEq, Bool.true_eq_false, false_and, false_or] at h
      simpa using ih h
    · simp only [List.mem_cons, Prod.mk.injEq, true_and] at h
      simp only [if_true]
      rcases h with rfl | h
      · cases earliest s rest with
        | none => exact ⟨f, rfl, Nat.le_refl _⟩
        | some x => simp only; split <;> exact ⟨_, rfl, by omega⟩
      · obtain ⟨e, h1, h2⟩ := ih h
        rw [h1]
        simp only
        split <;> exact ⟨_, rfl, by omega⟩

/-! ### The step -/

/-- A fire of the step timer that is ordered next, is enabled and has a period (R216, R300, R136). -/
theorem step_of_fireNext {s : State} {rest : List Event} (h : FireNext s rest) :
    step s = if s.busy then .next (fired s rest) else stepEnter (fired s rest) := by
  have he : stepTimerEnabled { s with agenda := rest } = true := by
    simp [stepTimerEnabled, h.processing, h.homing]
  have hf : stampFire { s with agenda := rest } = fired s rest := rfl
  unfold step nextEvent
  rw [if_pos h.initialised, h.agenda]
  simp only [mustWait, Bool.false_eq_true, if_false, perform, whenEnabled, he, if_true, stepTimerFire, hf]
  exact if_neg h.ceiling

/-- The four ways a step goes: the first `init()`, the event the agenda orders, the core's own next event, nothing. -/
theorem step_next {s t : State} (h : step s = .next t) :
    (s.initialised = false ∧ ∃ bytes rest, s.agenda = .hostOp bytes :: rest ∧ decode .hostPort bytes = .ok .init ∧
      t.stepCeiling ≠ 0 ∧ t = initialise { s with agenda := rest, busy := false, homing := none }) ∨
    (s.initialised = true ∧ ∃ e rest, s.agenda = e :: rest ∧ mustWait e s = false ∧
      EventEffect { s with agenda := rest } t e) ∨
    (s.initialised = true ∧ ∃ e, ownNextEvent s = some e ∧ EventEffect s t e) ∨
    (s.initialised = true ∧ ownNextEvent s = none ∧ t = s) := by
  have own : s.initialised = true → runOwnEvent s = .next t →
      (s.initialised = true ∧ ∃ e, ownNextEvent s = some e ∧ EventEffect s t e) ∨
      (s.initialised = true ∧ ownNextEvent s = none ∧ t = s) := by
    intro hi hr
    unfold runOwnEvent at hr
    split at hr
    · rename_i e he
      exact .inl ⟨hi, e, he, perform_next hr⟩
    · rename_i he
      exact .inr ⟨hi, he, by simpa using hr.symm⟩
  unfold step at h
  split at h
  · rename_i hi
    unfold nextEvent at h
    split at h
    · exact .inr (.inr (own hi h))
    · rename_i e rest ha
      split at h
      · exact .inr (.inr (own hi h))
      · rename_i hw
        exact .inr (.inl ⟨hi, e, rest, ha, by simpa using hw, perform_next h⟩)
  · rename_i hi
    unfold beforeInit at h
    split at h
    · rename_i bytes rest ha
      split at h
      · rename_i hd
        obtain ⟨-, he⟩ := exec_hostPort_next (i := .init) rfl h
        obtain ⟨hc⟩ := he
        exact .inl ⟨by simpa using hi, bytes, rest, ha, hd, hc, rfl⟩
      · cases h
    · cases h

end Sys2Proof.Machine
end

