-- ==== Sys2Proof/Tests/Slice0.lean ====
section
/-! SUPPORT. The model's own tests: the well-formedness checks on ill-formed terms, words written out from the encoding
tables, single steps with the values of 95_test_vectors.md, and for every statement with hypotheses a state and
operands that meet them together. -/

namespace Sys2Proof.Tests

open Sys2Proof Sys2Proof.Machine

/-! ### Helpers -/

/-- One field of the state a step answers, if it answers one. -/
def field {α : Type} (o : Host.Outcome State Fault Refusal) (f : State → α) : Option α :=
  match o with
  | .next t => some (f t)
  | .fault _ => none
  | .refused _ => none

/-- The refusal a step answers, if it answers one. -/
def refusal (o : Host.Outcome State Fault Refusal) : Option Refusal :=
  match o with
  | .next _ => none
  | .fault _ => none
  | .refused r => some r

/-- The block of V20: `LINE steps=(3,4,0)`, with the rates and phases of P1. -/
def v20 : MotionBlock := ⟨0b000000#6, 200, 3, 4, 0, 4, 60000, 60000, 60000, 0, 0, 4, 0⟩

/-- The block of P2: `LINE steps=(20,10,0) dir=(+,-,+)`. -/
def p2 : MotionBlock := ⟨0b010000#6, 200, 20, 10, 0, 20, 6000, 9000, 6000, 1000, 5, 15, 0⟩

/-- The block of P3: `RASTER_LINE steps=(40,0,0) pixel_steps=10`. -/
def p3 : MotionBlock := ⟨0b000000#6, 200, 40, 0, 0, 40, 60000, 60000, 60000, 0, 0, 40, 10⟩

/-- The record of V20's block (P1 writes it out). -/
def v20Record : List Byte :=
  [0x00, 0x00, 0xC8, 0x00, 3, 0, 0, 0, 4, 0, 0, 0, 0, 0, 0, 0, 4, 0, 0, 0, 0x60, 0xEA, 0, 0, 0x60, 0xEA, 0, 0,
    0x60, 0xEA, 0, 0, 0, 0, 0, 0, 0, 0, 0, 0, 4, 0, 0, 0, 0, 0, 0, 0]

/-- An armed core with V20's block queued and the step timer's fire next. -/
def fire : State :=
  { State.reset with processingFlag := true, queue := [v20Record], agenda := [.stepTimerFire] }

/-- The same core with the block under execution. -/
def inBlock : State := { fire with currentBlock := some (.line v20), counter := ⟨-2, -2, -2⟩, adjustedRate := 60000 }

/-- Inside the step event of a block: `StepEnter` has run, its `StepExit` is next. -/
def inEvent (blk : Block) (completed : Nat) : State :=
  { State.reset with
    processingFlag := true, busy := true, currentBlock := some blk, stepEventsCompleted := completed
    agenda := [.stepExit] }

/-- A homing pass under way. -/
def homing (reverse : Bool) (active : Axes3) (allowance : PerAxis Nat) (sense : Sense) : State :=
  { State.reset with homing := some ⟨reverse, active, allowance, 0⟩, sense := sense, agenda := [.homingIter] }

/-- One limit input asserted. -/
def xLimit : Sense := { Sense.clear with x1Limit := true }

/-! ### WellFormed: each condition of R112 refuses a block that breaks it -/

theorem test_wellFormed_good : Instr.wellFormed Config.exampleValues (.line v20) = true := by decide
theorem test_wellFormed_raster : Instr.wellFormed Config.exampleValues (.rasterLine p3) = true := by decide
theorem test_illFormed_count_not_max :
    Instr.wellFormed Config.exampleValues (.line { v20 with stepEventCount := 5 }) = false := by decide
theorem test_illFormed_phases :
    Instr.wellFormed Config.exampleValues (.line { v20 with accelerateUntil := 5 }) = false := by decide
theorem test_illFormed_count_zero :
    Instr.wellFormed Config.exampleValues (.line { v20 with stepsX := 0, stepsY := 0, stepEventCount := 0 }) = false := by
  decide
theorem test_illFormed_count_too_large :
    Instr.wellFormed Config.exampleValues
      (.line { v20 with stepsY := 0x80000000, stepEventCount := 0x80000000 }) = false := by decide
theorem test_illFormed_rate_below_minimum :
    Instr.wellFormed Config.exampleValues (.line { v20 with finalRate := 1199 }) = false := by decide
theorem test_illFormed_rate_above_nominal :
    Instr.wellFormed Config.exampleValues (.line { v20 with initialRate := 60001 }) = false := by decide
theorem test_illFormed_rate_unreachable :
    Instr.wellFormed Config.exampleValues (.line { v20 with nominalRate := 960000001 }) = false := by decide
theorem test_illFormed_step_bit :
    Instr.wellFormed Config.exampleValues (.line { v20 with directionBits := 0b001001#6 }) = false ∧
      Instr.encodable (.line { v20 with directionBits := 0b001001#6 }) = false := by decide
theorem test_illFormed_pixel_steps :
    Instr.wellFormed Config.exampleValues (.rasterLine { p3 with pixelSteps := 0 }) = false ∧
      Instr.wellFormed Config.exampleValues (.line { p3 with pixelSteps := 0 }) = true := by decide
theorem test_illFormed_not_a_number :
    Instr.wellFormed Config.exampleValues (.setPosition 0x7FF8000000000000 0 0) = false := by decide

/-! ### Decode: words written out from R101, R102, R106, R108 -/

theorem test_decode_line : decode .blockQueue v20Record = .ok (.line v20) := by decide

/-- The record of P3. -/
theorem test_decode_rasterLine :
    decode .blockQueue
        [0x01, 0x00, 0xC8, 0x00, 0x28, 0, 0, 0, 0, 0, 0, 0, 0, 0, 0, 0, 0x28, 0, 0, 0, 0x60, 0xEA, 0, 0, 0x60, 0xEA, 0,
          0, 0x60, 0xEA, 0, 0, 0, 0, 0, 0, 0, 0, 0, 0, 0x28, 0, 0, 0, 0x0A, 0, 0, 0] =
      .ok (.rasterLine p3) := by decide

/-- Every byte of every field at a value of its own. -/
theorem test_decode_every_byte :
    decode .blockQueue
        [0x00, 0x38, 0x02, 0x00, 4, 5, 6, 7, 8, 9, 10, 11, 12, 13, 14, 15, 16, 17, 18, 19, 20, 21, 22, 23, 24, 25, 26, 27,
          28, 29, 30, 31, 32, 33, 34, 35, 36, 37, 38, 39, 40, 41, 42, 43, 44, 45, 46, 47] =
      .ok (.line ⟨0b111000#6, 2, 0x07060504, 0x0B0A0908, 0x0F0E0D0C, 0x13121110, 0x17161514, 0x1B1A1918, 0x1F1E1D1C,
        0x23222120, 0x27262524, 0x2B2A2928, 0x2F2E2D2C⟩) := by decide
theorem test_decode_airAssistEnable :
    decode .blockQueue (0x02 :: List.replicate 47 0) = .ok .airAssistEnable := by decide
theorem test_decode_airAssistDisable :
    decode .blockQueue (0x03 :: List.replicate 47 0) = .ok .airAssistDisable := by decide
theorem test_decode_aux1Enable : decode .blockQueue (0x04 :: List.replicate 47 0) = .ok .aux1Enable := by decide
theorem test_decode_aux1Disable : decode .blockQueue (0x05 :: List.replicate 47 0) = .ok .aux1Disable := by decide
theorem test_decode_aux2Enable : decode .blockQueue (0x06 :: List.replicate 47 0xFF) = .ok .aux2Enable := by decide
theorem test_decode_aux2Disable : decode .blockQueue (0x07 :: List.replicate 47 0) = .ok .aux2Disable := by decide
theorem test_decode_one_byte_operations :
    decode .hostPort [0x00] = .ok .init ∧ decode .hostPort [0x01] = .ok .startProcessing ∧
      decode .hostPort [0x02] = .ok .stopProcessing ∧ decode .hostPort [0x03] = .ok .processing ∧
      decode .hostPort [0x05] = .ok .stopStatus ∧ decode .hostPort [0x06] = .ok .stopRequested ∧
      decode .hostPort [0x07] = .ok .stopResume ∧ decode .hostPort [0x08] = .ok .getPositionX ∧
      decode .hostPort [0x09] = .ok .getPositionY ∧ decode .hostPort [0x0A] = .ok .getPositionZ ∧
      decode .hostPort [0x0C] = .ok .homingCycle := by decide
theorem test_decode_requestStop :
    decode .hostPort [0x04, 0x00] = .ok (.requestStop .ok) ∧
      decode .hostPort [0x04, 0x06] = .ok (.requestStop .limitHitZ2) := by decide

/-- `set_position(12.375, 0, -1)` of V60: the three binary64 little-endian. -/
theorem test_decode_setPosition :
    decode .hostPort
        [0x0B, 0, 0, 0, 0, 0, 0, 0, 0, 0, 0, 0, 0, 0xC0, 0x28, 0x40, 0, 0, 0, 0, 0, 0, 0, 0, 0, 0, 0, 0, 0, 0, 0xF0,
          0xBF] =
      .ok (.setPosition 0x4028C00000000000 0 0xBFF0000000000000) := by decide
theorem test_decode_controlLaserIntensity :
    decode .hostPort [0x0D, 0xC8] = .ok (.controlLaserIntensity 200) := by decide

/-- R110: the boundary values of every reserved range. -/
theorem test_decode_reserved :
    decode .blockQueue (0x08 :: List.replicate 47 0) = .error .reservedBlockType ∧
      decode .blockQueue (0x00 :: 0x04 :: List.replicate 46 0) = .error .reservedDirectionBits ∧
      decode .blockQueue (0x01 :: 0x40 :: List.replicate 46 0) = .error .reservedDirectionBits ∧
      decode .blockQueue (0x00 :: 0x38 :: 0xFF :: 0x01 :: List.replicate 44 0) = .error .reservedByte ∧
      decode .blockQueue (0x02 :: List.replicate 46 0) = .error .blockLength ∧
      decode .hostPort [0x0E] = .error .reservedHostCode ∧ decode .hostPort [0x04, 0x07] = .error .reservedStatus ∧
      decode .hostPort [0x01, 0x00] = .error .hostLength ∧
      decode .hostPort (0x0B :: List.replicate 31 1) = .error .nonzeroPadding := by decide

/-- The two spaces read one code as two instructions (R109), and the table's length tells them apart (log 4). -/
theorem test_decodeTableWord :
    decodeTableWord 384 2 = some .airAssistEnable ∧ decodeTableWord 32 2 = some .airAssistEnable ∧
      decodeTableWord 8 2 = some .stopProcessing ∧ decodeTableWord 256 0x0B = some (.setPosition 0 0 0) ∧
      decodeTableWord 8 0x0B = some (.setPosition 0 0 0) ∧ decodeTableWord 16 0x040D = some (.controlLaserIntensity 4) ∧
      decodeTableWord 8 0x0E = none := by decide

/-! ### One step of each instruction (95_test_vectors.md) -/

/-- V20, event 1. -/
theorem test_line_first_event :
    field (exec (.line v20) { State.reset with currentBlock := none }) (fun t => (t.counter, t.position, t.outBits)) =
      some (⟨-3, -2, -2⟩, ⟨1, 1, 0⟩, 0b000011#6) := by decide

/-- P2, event 1: block init and the first `StepExit`, rate 6000 to 7000 with timer (8, 17142) and intensity 162. -/
theorem test_line_accelerates :
    field (exec (.line p2) { inEvent (.line p2) 0 with
        adjustedRate := 6000, accCounter := 80000, cyclesPerStepEvent := 160000 })
      (fun t => (t.adjustedRate, t.accCounter, t.stepPrescaler, t.stepCeiling, t.laserDuty)) =
      some (7000, 80000, .div8, 17142, 162) := by decide

/-- P3, event 20: the second byte of the stream is 255, the intensity 199 (C5). -/
theorem test_rasterLine_samples :
    field (exec (.rasterLine p3) { inEvent (.rasterLine p3) 19 with
        adjustedRate := 60000, pixelCounter := 9, raster := [255, 192, 200] })
      (fun t => (t.laserDuty, t.raster, t.pixelCounter)) = some (199, [192, 200], 0) := by decide

/-- P3, block init: intensity 0 and timer (1, 16000). -/
theorem test_rasterLine_first_event :
    field (exec (.rasterLine p3) State.reset) (fun t => (t.laserDuty, t.stepCeiling, t.position.x, t.stepPin)) =
      some (0, 16000, 1, 0b001#3) := by decide
theorem test_airAssistEnable :
    field (exec .airAssistEnable fire) (fun t => (t.airAssist, t.queue, t.trace)) =
      some (true, [], [.airAssist true, .plannerDiscardCurrentBlock]) := by decide
theorem test_airAssistDisable :
    field (exec .airAssistDisable { fire with airAssist := true }) (fun t => (t.airAssist, t.queue)) =
      some (false, []) := by decide
theorem test_aux1Enable :
    field (exec .aux1Enable fire) (fun t => (t.aux1Assist, t.aux2Assist)) = some (true, false) := by decide
theorem test_aux1Disable :
    field (exec .aux1Disable { fire with aux1Assist := true, aux2Assist := true })
      (fun t => (t.aux1Assist, t.aux2Assist)) = some (false, true) := by decide
theorem test_aux2Enable :
    field (exec .aux2Enable fire) (fun t => (t.aux1Assist, t.aux2Assist)) = some (false, true) := by decide
theorem test_aux2Disable :
    field (exec .aux2Disable { fire with aux1Assist := true, aux2Assist := true })
      (fun t => (t.aux1Assist, t.aux2Assist)) = some (true, false) := by decide

/-- V65 with `INVERT_MASK = 0b000101`. -/
theorem test_init_inverted :
    field (exec .init { fire with cfg := { Config.exampleValues with invertMask := 0b000101#6 }, laserDuty := 9 })
      (fun t => (t.stepPin, t.dirPin, t.laserDuty, t.processingFlag, t.queue.length)) =
      some (0b101#3, 0b000#3, 0, false, 1) := by decide
theorem test_init_timer :
    field (exec .init fire) (fun t => (t.stepPrescaler, t.stepCeiling, t.cyclesPerStepEvent)) =
      some (.div64, 12500, 800000) := by decide

/-- V63: arming with a stop pending. -/
theorem test_startProcessing :
    field (exec .startProcessing { State.reset with stopRequested := true }) (·.processingFlag) = some true := by decide

/-- V64: disarming in mid-block keeps the block. -/
theorem test_stopProcessing :
    field (exec .stopProcessing inBlock) (fun t => (t.processingFlag, t.currentBlock)) =
      some (false, some (.line v20)) := by decide
theorem test_processing : field (exec .processing fire) (·.resultPort) = some (some (.u8 1)) := by decide

/-- V62, first request. -/
theorem test_requestStop_first :
    field (exec (.requestStop .limitHitY2) State.reset) (fun t => (t.stopStatus, t.trace)) =
      some (.limitHitY2, [.serialStop]) := by decide

/-- V62, second request. -/
theorem test_requestStop_second :
    field (exec (.requestStop .limitHitX1) { State.reset with stopRequested := true, stopStatus := .limitHitY2 })
      (fun t => (t.stopStatus, t.trace)) = some (.limitHitY2, []) := by decide
theorem test_stopStatus :
    field (exec .stopStatus { State.reset with stopStatus := .limitHitY2 }) (·.resultPort) = some (some (.u8 4)) := by
  decide
theorem test_stopRequested :
    field (exec .stopRequested { State.reset with stopRequested := true }) (·.resultPort) = some (some (.u8 1)) := by
  decide
theorem test_stopResume :
    field (exec .stopResume { State.reset with stopRequested := true, stopStatus := .limitHitZ2 })
      (fun t => (t.stopRequested, t.stopStatus)) = some (false, .ok) := by decide

/-- V60: 1238 steps are 12.38 mm, the binary64 0x4028C28F5C28F5C3. -/
theorem test_getPositionX :
    field (exec .getPositionX { State.reset with position := ⟨1238, 0, -100⟩ }) (·.resultPort) =
      some (some (.f64 0x4028C28F5C28F5C3)) := by decide +kernel
theorem test_getPositionY :
    field (exec .getPositionY { State.reset with position := ⟨1238, 0, -100⟩ }) (·.resultPort) =
      some (some (.f64 0)) := by decide +kernel
theorem test_getPositionZ :
    field (exec .getPositionZ { State.reset with position := ⟨1238, 0, -100⟩ }) (·.resultPort) =
      some (some (.f64 0xBFF0000000000000)) := by decide +kernel

/-- V60: `set_position(12.375, 0, -1)`, a tie rounded away from zero. -/
theorem test_setPosition :
    field (exec (.setPosition 0x4028C00000000000 0 0xBFF0000000000000) State.reset) (·.position) =
      some ⟨1238, 0, -100⟩ := by decide +kernel

/-- V60: the binary64 nearest to -0.005 is just below it. -/
theorem test_setPosition_negative :
    field (exec (.setPosition 0xBF747AE147AE147B 0x3F70624DD2F1A9FC 0) State.reset) (·.position) =
      some ⟨-1, 0, 0⟩ := by decide +kernel
theorem test_homingCycle :
    field (exec .homingCycle State.reset) (fun t => (t.dirPin, t.homing.map (·.active))) =
      some (0b111#3, some 0b111#3) := by decide
theorem test_homingCycle_refused : refusal (exec .homingCycle fire) = some .homingWhileProcessing := by decide
theorem test_controlLaserIntensity :
    field (exec (.controlLaserIntensity 7) State.reset) (fun t => (t.laserDuty, t.laserPin)) = some (7, false) := by
  decide

/-! ### One step of the machine -/

/-- V52. -/
theorem test_step_underrun :
    field (step { fire with queue := [] }) (fun t => (t.processingFlag, t.pwmCounter)) = some (false, 2) := by decide

/-- V54: X2 before Z1. -/
theorem test_step_limit_priority :
    field (step { fire with sense := { Sense.clear with x2Limit := true, z1Limit := true } })
      (fun t => (t.stopStatus, t.pwmCounter, t.busy)) = some (.limitHitX2, 1, false) := by decide

/-- V53. -/
theorem test_step_stop_path :
    field (step { inBlock with stopRequested := true, stopStatus := .limitHitX1 })
      (fun t => (t.processingFlag, t.queue, t.currentBlock, t.stopStatus)) =
      some (false, [], none, .limitHitX1) := by decide

/-- V57, iteration 10: X leaves, Y goes on. -/
theorem test_step_homing :
    field (step (homing false 0b011#3 ⟨0, 2, 0⟩
        { Sense.clear with x1Limit := true, y1Limit := true, z1Limit := true }))
      (fun t => (t.homing.map (fun h => (h.active, h.allowance)), t.stepPin)) =
      some (some (0b010#3, ⟨0, 1, 0⟩), 0b000#3) := by decide

/-- V40: duty 200 with a period of 16000 gives the beam timer (1, 37500). -/
theorem test_laser_pulse :
    (issueLaserPulse { State.reset with laserDuty := 200, cyclesPerStepEvent := 16000 }).beamCeiling = 37500 := by
  decide

/-- V42, with a clamped and a truncated result. -/
theorem test_dim :
    dim Config.exampleValues 7000 200 9000 = 162 ∧ dim Config.exampleValues 70000 250 60000 = 255 ∧
      dim Config.exampleValues 30000 1 60000 = 0 := by decide

/-- The next step runs the instruction `withFetchWord` places: AUX2_ENABLE by its type code alone. -/
theorem test_withFetchWord :
    field (step (State.reset.withFetchWord 384 6)) (fun t => (t.aux2Assist, t.queue)) = some (true, []) ∧
      field (step (State.reset.withFetchWord 16 0xC80D)) (·.laserDuty) = some 200 := by decide

/-- A motion block of zeros is refused at its fetch by a machine that is `strict` (log 13); by one that is not, a
`RASTER_LINE` is run and a `LINE` only if its `nominal_rate` is not 0 (log 7). -/
theorem test_step_illFormed :
    refusal (step { fire with queue := [0x01 :: List.replicate 47 0] }) = some .illFormedBlock ∧
      field (step (State.reset.withFetchWord 32 1)) (·.busy) = some true ∧
      refusal (step (State.reset.withFetchWord 32 0)) = some .zeroNominalRate ∧
      field (step (State.reset.withFetchWord 384 (2 ^ 192))) (·.busy) = some true := by decide

/-- A motion block whose fields are all 0. -/
def zeroBlock : MotionBlock := ⟨0, 0, 0, 0, 0, 0, 0, 0, 0, 0, 0, 0, 0⟩

/-- Such a block in a step event that a `u32` cannot count. -/
def lastCount : State :=
  { State.reset with
    cfg := { Config.exampleValues with strict := false }, busy := true, currentBlock := some (.rasterLine zeroBlock)
    queue := [1 :: List.replicate 47 0], stepEventsCompleted := 4294967295 }

/-- V26: 960000001 steps per minute give 0 cycles, refused, and 960000000 give (1, 1). -/
theorem test_zeroPeriod :
    refusal (exec (.line { v20 with initialRate := 960000001 }) State.reset) = some .zeroTimerPeriod ∧
      field (exec (.line { v20 with initialRate := 960000000 }) State.reset) (fun t => (t.stepPrescaler, t.stepCeiling)) =
        some (.div1, 1) ∧
      refusal (step { fire with stepCeiling := 0 }) = some .zeroTimerPeriod := by decide

/-- R352, U11: a block of zeros in a machine that is not `strict` goes on at the last count of a `u32`, but one. -/
theorem test_stepCountOverflow :
    field (exec (.rasterLine zeroBlock) { lastCount with stepEventsCompleted := 4294967294 }) (·.stepEventsCompleted) =
        some 4294967295 ∧
      refusal (exec (.rasterLine zeroBlock) lastCount) = some .stepCountOverflow := by decide

/-! ### Witnesses: for every statement with hypotheses, a state and operands that meet them together -/

/-- A core that can take a host operation, with `bytes` on its port. -/
def withHostOp (bytes : List Byte) : State := { State.reset with agenda := [.hostOp bytes] }

theorem witness_DecodeOfEncodeIsIdentity :
    Instr.encodable (.line p2) = true ∧ Instr.encodable (.setPosition 0x7FEFFFFFFFFFFFFF 0 0x8000000000000000) = true ∧
      Instr.encodable (.requestStop .limitHitZ2) = true := by decide

theorem witness_EncodeOfDecodedHostOperation :
    decode .hostPort [0x0D, 0xFF] = .ok (.controlLaserIntensity 255) := by decide

theorem witness_EncodeOfDecodedMotionBlock : decodeBlock v20Record = .ok (MotionKind.line.block v20) := by decide

theorem witness_ReservedEncodingsAreRefused_blocks :
    ((0x08 :: List.replicate 47 0 : List Byte).length = 48 ∧
      8 ≤ (byteAt (0x08 :: List.replicate 47 0) 0).toNat) ∧
    ((0x01 :: 0x01 :: List.replicate 46 0 : List Byte).length = 48 ∧
      (byteAt (0x01 :: 0x01 :: List.replicate 46 0) 0).toNat ≤ 1 ∧
      byteAt (0x01 :: 0x01 :: List.replicate 46 0) 1 &&& 0b11000111#8 ≠ 0) ∧
    ((0x01 :: 0x38 :: 0 :: 1 :: List.replicate 44 0 : List Byte).length = 48 ∧
      (byteAt (0x01 :: 0x38 :: 0 :: 1 :: List.replicate 44 0) 0).toNat ≤ 1 ∧
      byteAt (0x01 :: 0x38 :: 0 :: 1 :: List.replicate 44 0) 1 &&& 0b11000111#8 = 0 ∧
      byteAt (0x01 :: 0x38 :: 0 :: 1 :: List.replicate 44 0) 3 ≠ 0) := by decide

theorem witness_ReservedEncodingsAreRefused_host :
    0x0E ≤ (byteAt [0x0E] 0).toNat ∧ 7 ≤ (7 : Byte).toNat ∧
      ([0, 0, 0, 0, 0, 0, 1] : List Byte).length = 7 ∧ ([0, 0, 0, 0, 0, 0, 1] : List Byte) ≠ List.replicate 7 0 ∧
      f64Finite 0x7FF0000000000000 = false := by decide

theorem witness_ReservedEncodingsAreRefused_hostPort :
    (withHostOp [0x0E]).initialised = true ∧ (withHostOp [0x0E]).agenda = .hostOp [0x0E] :: [] ∧
      (withHostOp [0x0E]).busy = false ∧ (withHostOp [0x0E]).homing = none ∧
      decode .hostPort [0x0E] = .error .reservedHostCode := by decide

theorem witness_fire : FireNext fire [] ∧ fire.busy = false ∧ fire.stopRequested = false ∧ limitHit fire = none :=
  ⟨⟨rfl, rfl, rfl, rfl, by decide⟩, rfl, rfl, rfl⟩

/-- An armed core with a reserved record at the head of its queue. -/
def fireReserved : State := { fire with queue := [0xFF :: List.replicate 47 0] }

theorem witness_ReservedEncodingsAreRefused_fetch :
    FireNext fireReserved [] ∧ fireReserved.busy = false ∧ fireReserved.stopRequested = false ∧
      limitHit fireReserved = none ∧ fireReserved.currentBlock = none ∧
      fireReserved.queue = (0xFF :: List.replicate 47 0) :: [] ∧
      decodeBlock (0xFF :: List.replicate 47 0) = .error .reservedBlockType :=
  ⟨⟨rfl, rfl, rfl, rfl, by decide⟩, rfl, rfl, rfl, rfl, rfl, by decide⟩

theorem witness_StepRunsTheFetchedBlock :
    (FireNext fire [] ∧ fire.busy = false ∧ fire.stopRequested = false ∧ limitHit fire = none) ∧
      fire.currentBlock = none ∧ fire.queue = v20Record :: [] ∧ decodeBlock v20Record = .ok (.line v20) :=
  ⟨witness_fire, rfl, rfl, by decide⟩

/-- The same core, with a block that runs and one that a machine which is `strict` refuses. -/
theorem witness_StepRunsTheFetchedBlock_strict :
    Runs fire.cfg (.line v20) ∧ fire.cfg.strict = true ∧
      decodeBlock (0x01 :: List.replicate 47 0) = .ok (.rasterLine ⟨0, 0, 0, 0, 0, 0, 0, 0, 0, 0, 0, 0, 0⟩) ∧
      Instr.wellFormed fire.cfg (.rasterLine ⟨0, 0, 0, 0, 0, 0, 0, 0, 0, 0, 0, 0, 0⟩) = false :=
  ⟨fun _ => by decide, rfl, by decide, by decide⟩

theorem witness_StepRunsTheCurrentBlock :
    (FireNext inBlock [] ∧ inBlock.busy = false ∧ inBlock.stopRequested = false ∧ limitHit inBlock = none ∧
      inBlock.currentBlock = some (.line v20)) ∧
    ((inEvent (.rasterLine p3) 9).initialised = true ∧ (inEvent (.rasterLine p3) 9).agenda = .stepExit :: [] ∧
      (inEvent (.rasterLine p3) 9).busy = true ∧
      (inEvent (.rasterLine p3) 9).currentBlock = some (MotionKind.raster.block p3)) :=
  ⟨⟨⟨rfl, rfl, rfl, rfl, by decide⟩, rfl, rfl, rfl, rfl⟩, rfl, rfl, rfl, rfl⟩

theorem witness_StepRunsTheHostOperation :
    (withHostOp [0x0C]).initialised = true ∧ (withHostOp [0x0C]).agenda = .hostOp [0x0C] :: [] ∧
      (withHostOp [0x0C]).busy = false ∧ (withHostOp [0x0C]).homing = none ∧
      decode .hostPort [0x0C] = .ok .homingCycle := by decide

/-- Example parameters whose minimum rate has no period: 960000001 steps per minute. -/
def noPeriod : Config := { Config.exampleValues with minimumStepsPerMinute := 960000001 }

theorem witness_OnlyInitBeforeTheFirstInit :
    (∀ rest, ({ fire with initialised := false } : State).agenda ≠ .hostOp [0x00] :: rest) ∧
      ({ fire with initialised := false } : State).initialised = false ∧
      ({ withHostOp [0x00] with initialised := false } : State).agenda = .hostOp [0x00] :: [] ∧
      HasPeriod Config.exampleValues Config.exampleValues.minimumStepsPerMinute ∧
      ¬HasPeriod noPeriod noPeriod.minimumStepsPerMinute :=
  ⟨fun _ h => (by cases h), rfl, rfl, by decide, by decide⟩

/-- The beam one-shot armed beside the step timer, both due at the same time, with nothing ordered. -/
def twoDue : State := { fire with agenda := [], beamArmed := true, beamDeadline := 800000 }

/-- An idle core, a core with two events due, and a step event under way with a host operation that waits. -/
theorem witness_CoreTakesTheEarliestDueEvent :
    (State.reset.initialised = true ∧ State.reset.agenda = [] ∧ State.reset.busy = false ∧
      State.reset.processingFlag = false ∧ State.reset.pulseArmed = false ∧ State.reset.beamArmed = false ∧
      State.reset.homing = none) ∧
    (ownNextEvent State.reset = none ∧ ownNextEvent twoDue = some .beamResetFire ∧
      TimerEventEnabled twoDue .stepTimerFire ∧ TimerEventEnabled twoDue .beamResetFire) ∧
    (HostOpWaits { inEvent (.line v20) 0 with agenda := [.hostOp [0x07]] } ∧
      (inEvent (.line v20) 0).busy = true ∧ motionCurrent (inEvent (.line v20) 0) = true) ∧
    (homing false 0b111#3 ⟨6, 6, 6⟩ xLimit).homing = some ⟨false, 0b111#3, ⟨6, 6, 6⟩, 0⟩ :=
  ⟨⟨rfl, rfl, rfl, rfl, rfl, rfl, rfl⟩,
    ⟨by decide, by decide, .inr (.inr (.inr ⟨rfl, rfl, rfl⟩)), .inr (.inl ⟨rfl, rfl⟩)⟩,
    ⟨⟨[0x07], [], rfl, .inl rfl⟩, rfl, rfl⟩, rfl⟩

theorem witness_DroppedTickChangesNothing :
    FireNext { inBlock with busy := true } [] ∧ ({ inBlock with busy := true } : State).busy = true :=
  ⟨⟨rfl, rfl, rfl, rfl, by decide⟩, rfl⟩

theorem witness_StopPathFlushesAndDisarms :
    FireNext { inBlock with stopRequested := true } [] ∧ ({ inBlock with stopRequested := true } : State).busy = false ∧
      ({ inBlock with stopRequested := true } : State).stopRequested = true :=
  ⟨⟨rfl, rfl, rfl, rfl, by decide⟩, rfl, rfl⟩

theorem witness_InterlocksAndLimitsOfStepFour :
    (FireNext { fire with sense := xLimit } [] ∧ ({ fire with sense := xLimit } : State).cfg.enableLaserInterlocks = true ∧
      requestedByLimits xLimit = some .limitHitX1 ∧
      requestedByLimits { Sense.clear with z2Limit := true } = some .limitHitZ2) ∧
    (FireNext { fire with sense := { Sense.clear with doorOpen := true } } [] ∧
      requestedByLimits { Sense.clear with doorOpen := true } = none) ∧
    (FireNext { fire with cfg := { Config.exampleValues with enableLaserInterlocks := false }, sense := xLimit } [] ∧
      Config.enableLaserInterlocks { Config.exampleValues with enableLaserInterlocks := false } = false) :=
  ⟨⟨⟨rfl, rfl, rfl, rfl, by decide⟩, rfl, rfl, rfl⟩, ⟨⟨rfl, rfl, rfl, rfl, by decide⟩, rfl⟩,
    ⟨rfl, rfl, rfl, rfl, by decide⟩, rfl⟩

theorem witness_UnderrunDisarms :
    FireNext { fire with queue := [] } [] ∧ ({ fire with queue := [] } : State).busy = false ∧
      ({ fire with queue := [] } : State).stopRequested = false ∧ limitHit { fire with queue := [] } = none ∧
      ({ fire with queue := [] } : State).currentBlock = none ∧ ({ fire with queue := [] } : State).queue = [] :=
  ⟨⟨rfl, rfl, rfl, rfl, by decide⟩, rfl, rfl, rfl, rfl, rfl⟩

/-- An invocation that is due a laser pulse with the door open and a non-zero duty before step 4. -/
def doorOpen : State :=
  { fire with sense := { Sense.clear with doorOpen := true }, pwmCounter := 3, laserDuty := 200 }

theorem witness_NoLaserPulseWithInterlockOpen :
    FireNext doorOpen [] ∧ interlockOpen doorOpen = true ∧ ∃ t, step doorOpen = .next t :=
  ⟨⟨rfl, rfl, rfl, rfl, by decide⟩, rfl, _, rfl⟩

theorem witness_PulseResetRestoresIdle :
    ({ State.reset with agenda := [.pulseResetFire], pulseArmed := true } : State).initialised = true ∧
      ({ State.reset with agenda := [.pulseResetFire], pulseArmed := true } : State).agenda = .pulseResetFire :: [] ∧
      ({ State.reset with agenda := [.pulseResetFire], pulseArmed := true } : State).pulseArmed = true ∧
      ({ State.reset with agenda := [.pulseResetFire] } : State).pulseArmed = false := ⟨rfl, rfl, rfl, rfl⟩

theorem witness_BeamResetDropsThePin :
    ({ State.reset with agenda := [.beamResetFire], beamArmed := true } : State).initialised = true ∧
      ({ State.reset with agenda := [.beamResetFire], beamArmed := true } : State).agenda = .beamResetFire :: [] ∧
      ({ State.reset with agenda := [.beamResetFire], beamArmed := true } : State).beamArmed = true ∧
      ({ State.reset with agenda := [.beamResetFire] } : State).beamArmed = false := ⟨rfl, rfl, rfl, rfl⟩

theorem witness_EnvironmentEventsChangeOnlyTheirOwn :
    (({ inBlock with agenda := [.plannerPush v20Record] } : State).initialised = true ∧
      ({ inBlock with agenda := [.plannerPush v20Record] } : State).agenda = .plannerPush v20Record :: [] ∧
      v20Record.length = 48) ∧
    ({ inBlock with agenda := [.rasterPush 255] } : State).agenda = .rasterPush 255 :: [] ∧
    ({ inBlock with agenda := [.senseChange xLimit] } : State).agenda = .senseChange xLimit :: [] :=
  ⟨⟨rfl, rfl, rfl⟩, rfl, rfl⟩

theorem witness_DisabledEventsAreRefused :
    (({ fire with processingFlag := false } : State).initialised = true ∧
      ({ fire with processingFlag := false } : State).agenda = .stepTimerFire :: [] ∧
      ({ fire with processingFlag := false } : State).processingFlag = false) ∧
    (({ fire with stepCeiling := 0 } : State).agenda = .stepTimerFire :: [] ∧
      ({ fire with stepCeiling := 0 } : State).processingFlag = true ∧
      ({ fire with stepCeiling := 0 } : State).homing = none ∧ ({ fire with stepCeiling := 0 } : State).stepCeiling = 0) ∧
    (({ inEvent (.line v20) 0 with busy := false } : State).agenda = .stepExit :: [] ∧
      ({ inEvent (.line v20) 0 with busy := false } : State).busy = false) ∧
    (({ State.reset with agenda := [.homingIter] } : State).agenda = .homingIter :: [] ∧
      ({ State.reset with agenda := [.homingIter] } : State).homing = none) :=
  ⟨⟨rfl, rfl, rfl⟩, ⟨rfl, rfl, rfl, rfl⟩, ⟨rfl, rfl⟩, rfl, rfl⟩

theorem witness_HostOperationsNeedAReadyCore :
    Instr.space .startProcessing = .hostPort ∧ Instr.encodable .startProcessing = true ∧
      (inEvent (.line v20) 0).busy = true ∧ (homing false 0b111#3 ⟨6, 6, 6⟩ xLimit).homing ≠ none :=
  ⟨rfl, rfl, rfl, by decide⟩

theorem witness_SelectPrescalerIsTheSmallestFitting : 67108863 ≤ 67108863 ∧ 67108863 < 67108864 := by decide

theorem witness_AchievedPeriodIsTheRequestedOneTruncated : 67108863 ≤ 67108863 ∧ 67108863 < 67108864 := by decide

/-- A step that leaves ceiling 0 where it was. -/
theorem witness_SetStepRateProgramsTheTimer :
    ∃ t, step { State.reset with stepCeiling := 0 } = .next t ∧ t.stepCeiling = 0 := ⟨_, rfl, rfl⟩

/-- The initial rate of V20's block, the largest rate with a period, and the smallest without one. -/
theorem witness_FetchedMotionBlockMakesItsFirstStepEvent :
    fire.busy = false ∧ fire.currentBlock = none ∧ Dimmable .line v20 ∧ HasPeriod fire.cfg v20.initialRate.toNat ∧
      HasPeriod fire.cfg 960000000 ∧ ¬HasPeriod fire.cfg 960000001 ∧
      ({ v20 with nominalRate := 0 } : MotionBlock).nominalRate = 0 := by decide

theorem witness_CurrentMotionBlockMakesItsNextStepEvent :
    inBlock.busy = false ∧ inBlock.currentBlock = some (MotionKind.line.block v20) ∧ Dimmable .line v20 ∧
      inBlock.stepCeiling ≠ 0 ∧ ({ inBlock with stepCeiling := 0 } : State).stepCeiling = 0 := by decide

/-- A `StepExit` that keeps the rate, one that changes it, and one that would program a rate without a period. -/
theorem witness_exit :
    (ExitHasPeriod v20 { inEvent (.line v20) 2 with adjustedRate := 60000 } ∧ Dimmable .line v20) ∧
      (ExitHasPeriod p2 (inEvent (.line p2) 4) ∧ Dimmable .line p2 ∧ Dimmable .raster p2) ∧
      ¬ExitHasPeriod { v20 with nominalRate := 960000001 } (inEvent (.line v20) 2) := by
  refine ⟨⟨?_, by decide⟩, ⟨?_, by decide, by decide⟩, ?_⟩ <;> unfold ExitHasPeriod <;> decide

/-- A step event that cannot be counted and the last that can, the last step event of a block but one, and the last. -/
theorem witness_StepExitCountsAndCompletes :
    (lastCount.busy = true ∧ Dimmable .raster zeroBlock ∧ 2 ^ 32 - 1 < lastCount.stepEventsCompleted + 1 ∧
      CountFits { lastCount with stepEventsCompleted := 4294967294 }) ∧
    (CountFits (inEvent (.line v20) 2) ∧ CountFits (inEvent (.line v20) 3)) ∧
    ((inEvent (.line v20) 2).busy = true ∧ Dimmable .line v20 ∧ ExitHasPeriod v20 (inEvent (.line v20) 2) ∧
      (inEvent (.line v20) 2).stepEventsCompleted + 1 ≠ v20.stepEventCount.toNat) ∧
    ((inEvent (.line v20) 3).busy = true ∧ ExitHasPeriod v20 (inEvent (.line v20) 3) ∧
      (inEvent (.line v20) 3).stepEventsCompleted + 1 = v20.stepEventCount.toNat) := by
  refine ⟨by decide, by decide, ⟨by decide, by decide, ?_, by decide⟩, by decide, ?_, by decide⟩ <;>
    unfold ExitHasPeriod <;> decide

/-- Step events 4, 5, 14, 15 and 16 of P2's block, at the ends of its phases, with the sum at `CPAT` and one above. -/
theorem witness_SpeedProfileFollowsItsPhases :
    (∀ n, n ∈ [3, 4, 13, 14, 15] → CountFits (inEvent (.line p2) n) ∧ ExitHasPeriod p2 (inEvent (.line p2) n)) ∧
      Dimmable .line p2 ∧
      ((inEvent (.line p2) 3).busy = true ∧ (inEvent (.line p2) 3).stepEventsCompleted + 1 < p2.accelerateUntil.toNat) ∧
      (p2.accelerateUntil.toNat ≤ (inEvent (.line p2) 4).stepEventsCompleted + 1 ∧
        (inEvent (.line p2) 13).stepEventsCompleted + 1 < p2.decelerateAfter.toNat) ∧
      (inEvent (.line p2) 14).stepEventsCompleted + 1 = p2.decelerateAfter.toNat ∧
      p2.decelerateAfter.toNat < (inEvent (.line p2) 15).stepEventsCompleted + 1 ∧
      16000000 / 100 < 80000 + 80001 ∧ 80000 + 80000 ≤ 16000000 / 100 := by
  refine ⟨fun n hn => ?_, by decide, by decide, by decide, by decide, by decide, by decide, by decide⟩
  unfold ExitHasPeriod
  revert n
  decide

/-- A step event that changes the rate, of either kind, and one that does not. -/
theorem witness_RateChangeReprogramsTimerAndDimming :
    ((inEvent (.line p2) 4).busy = true ∧ CountFits (inEvent (.line p2) 4) ∧
      CountFits (inEvent (.rasterLine p2) 4) ∧ CountFits (inEvent (.line v20) 0) ∧ CountFits (inEvent (.line v20) 2) ∧
      field (exec (.line p2) (inEvent (.line p2) 4)) (·.adjustedRate) ≠ some (inEvent (.line p2) 4).adjustedRate ∧
      field (exec (.rasterLine p2) (inEvent (.rasterLine p2) 4)) (·.adjustedRate) ≠
        some (inEvent (.rasterLine p2) 4).adjustedRate) ∧
    field (exec (.line v20) { inEvent (.line v20) 0 with adjustedRate := 60000 }) (·.adjustedRate) = some 60000 := by
  decide

/-- A sample with a byte on the stream and without one, a cruise event without a sample, and an event outside. -/
theorem witness_RasterSamplingInCruise :
    (∀ n, n ∈ [8, 9, 38, 39] →
        CountFits (inEvent (.rasterLine p3) n) ∧ ExitHasPeriod p3 (inEvent (.rasterLine p3) n)) ∧
      (inEvent (.rasterLine p3) 9).busy = true ∧
      (p3.accelerateUntil.toNat ≤ 9 + 1 ∧ 38 + 1 < p3.decelerateAfter.toNat ∧ ¬39 + 1 < p3.decelerateAfter.toNat) ∧
      (p3.pixelSteps.toNat ≤ 9 + 1 ∧ ¬p3.pixelSteps.toNat ≤ 8 + 1) ∧
      39 + 1 = p3.stepEventCount.toNat ∧ (inEvent (.rasterLine p3) 9).raster = [] := by
  refine ⟨fun n hn => ?_, by decide, by decide, by decide, by decide, by decide⟩
  unfold ExitHasPeriod
  revert n
  decide

theorem witness_ExactlyStepsPulsesInABlock : 1 ≤ 1 ∧ 0 ≤ 1 ∧ 1 ≤ 4 ∧ 4 ≤ 4 := by decide

theorem witness_MotionBlockRunsToCompletion :
    State.reset.cfg.Valid ∧ MotionKind.raster.BlockWellFormed State.reset.cfg p3 ∧ State.reset.busy = false ∧ State.reset.currentBlock = none ∧
      0 < 39 ∧ 39 < p3.stepEventCount.toNat := by decide

theorem witness_ready : State.reset.busy = false ∧ State.reset.homing = none := by decide

theorem witness_ControlLaserIntensityWritesTheDutyOnly : inBlock.busy = false ∧ inBlock.homing = none := by decide

theorem witness_LaserPulseEveryEveryInvocations :
    doorOpen.cfg.beamEvery ≤ doorOpen.pwmCounter ∧
      ({ doorOpen with pwmCounter := 2 } : State).pwmCounter < ({ doorOpen with pwmCounter := 2 } : State).cfg.beamEvery := by
  decide

theorem witness_LaserPulseCases :
    State.reset.laserDuty = 0 ∧ 242 ≤ ({ State.reset with laserDuty := 242 } : State).laserDuty.toNat ∧
      ({ State.reset with laserDuty := 1 } : State).laserDuty ≠ 0 ∧
      ({ State.reset with laserDuty := 241 } : State).laserDuty.toNat < 242 := by decide

theorem witness_DimIsTheExactFloor : Config.exampleValues.Valid ∧ 0 < 1 := by decide

theorem witness_DimIsMonotoneAndBounded : Config.exampleValues.Valid ∧ 0 < 9000 ∧ 6000 ≤ 9000 ∧ 9000 ≤ 9000 := by decide

theorem witness_RasterMapValues : (127 : Byte).toNat < 128 ∧ 128 ≤ (128 : Byte).toNat ∧ 1 ≤ (1 : Byte).toNat := by decide

theorem witness_FirstStopRequestIsRecorded :
    (State.reset.busy = false ∧ State.reset.homing = none ∧ State.reset.stopRequested = false) ∧
      ({ State.reset with stopRequested := true } : State).stopRequested = true := by decide

theorem witness_StopResumeClearsTheStop :
    State.reset.busy = false ∧ State.reset.homing = none ∧ State.reset.stopRequested = false ∧
      State.reset.stopStatus = .ok := by decide

theorem witness_StartAndStopProcessing : State.reset.busy = false ∧ State.reset.homing = none := witness_ready

theorem witness_StatusQueriesReturnTheRegister : State.reset.busy = false ∧ State.reset.homing = none := witness_ready

theorem witness_PositionQueriesReturnMillimetres : State.reset.busy = false ∧ State.reset.homing = none := witness_ready

theorem witness_StepsToMmIsTheNearestDouble :
    0 < 100 ∧ 0 < 1 ∧ (1238 : Int).natAbs * 1 ≤ 100 * 2 ^ 1023 ∧ f64Finite (stepsToMm 1238 100 1) = true ∧
      f64Finite 0x4028C28F5C28F5C2 = true := by decide +kernel

theorem witness_SetPositionRoundsHalfAway :
    State.reset.cfg.Valid ∧ State.reset.busy = false ∧ State.reset.homing = none ∧ f64Finite 0x4028C00000000000 = true ∧
      f64Finite 0x0000000000000001 = true ∧ f64Finite 0xFFEFFFFFFFFFFFFF = true := by decide

/-- 12.375 mm, which is between two step counts at 100 steps per mm, and 12.5 mm, which is exactly 1250 steps. -/
theorem witness_PositionRoundTripWithinHalfAStep :
    0 < 100 ∧ 0 < 1 ∧ f64Finite 0x4028C00000000000 = true ∧ f64Finite 0x4029000000000000 = true ∧
      f64Value 0x4029000000000000 = ((1250 : Int) : ℚ) / (((100 : Nat) : ℚ) / (1 : Nat)) := by
  have h : f64Num 0x4029000000000000 = 0x19000000000000 ∧ f64Den 0x4029000000000000 = 2 ^ 49 ∧
      f64Negative 0x4029000000000000 = false := by decide
  refine ⟨by decide, by decide, by decide, by decide, ?_⟩
  simp only [f64Value, h.1, h.2.1, h.2.2]
  norm_num

theorem witness_HomingCycleStartsTheApproachPass :
    (State.reset.busy = false ∧ State.reset.homing = none ∧ State.reset.processingFlag = false) ∧
      fire.busy = false ∧ fire.homing = none ∧ fire.processingFlag = true := by decide

/-- An approach pass going on, and the last iterations of the two passes. -/
theorem witness_HomingIterationFollowsItsRule :
    Config.exampleValues.Valid ∧
    ((homing false 0b011#3 ⟨0, 2, 0⟩ xLimit).initialised = true ∧
      (homing false 0b011#3 ⟨0, 2, 0⟩ xLimit).agenda = .homingIter :: [] ∧
      (homing false 0b011#3 ⟨0, 2, 0⟩ xLimit).homing = some ⟨false, 0b011#3, ⟨0, 2, 0⟩, 0⟩) ∧
    (homing false 0b001#3 ⟨0, 0, 0⟩ xLimit).homing = some ⟨false, 0b001#3, ⟨0, 0, 0⟩, 0⟩ ∧
    (homing true 0b001#3 ⟨0, 0, 0⟩ Sense.clear).homing = some ⟨true, 0b001#3, ⟨0, 0, 0⟩, 0⟩ := by decide

/-- The state a step answers, or the state itself. -/
def after (s : State) : State :=
  match step s with
  | .next t => t
  | _ => s

/-- Homing iterations of the approach pass with X on its switch from the first on, the Y input changing between them. -/
def overshoot : Nat → State
  | 0 => homing false 0b111#3 ⟨6, 6, 6⟩ xLimit
  | n + 1 =>
    { after (overshoot n) with agenda := [.homingIter], sense := { xLimit with y1Limit := n % 2 == 0 } }

theorem witness_HomingOvershootIsSixPulses :
    (overshoot 0).cfg.Valid ∧
    (∀ n, n < 7 → (overshoot n).initialised = true ∧ (overshoot n).agenda = .homingIter :: [] ∧
      (overshoot n).homing = some ((overshoot n).homing.getD ⟨false, 0#3, ⟨0, 0, 0⟩, 0⟩) ∧
      step (overshoot n) = .next (after (overshoot n))) ∧
    (∀ n, n < 6 → (overshoot (n + 1)).homing = (after (overshoot n)).homing ∧
      (overshoot (n + 1)).cfg = (after (overshoot n)).cfg) ∧
    ((overshoot 0).homing = some ⟨false, 0b111#3, ⟨6, 6, 6⟩, 0⟩ ∧
      ∀ n, n < 7 → (readLimitBits (overshoot n).sense).getLsbD ((overshoot 0).cfg.homingLimitBit.get .x) = !false) := by
  refine ⟨by decide, fun n hn => ?_, fun n hn => ⟨rfl, rfl⟩, rfl, fun n hn => ?_⟩
  · interval_cases n <;> exact ⟨rfl, rfl, rfl, rfl⟩
  · interval_cases n <;> rfl

theorem witness_InitWritesTheResetTable :
    inBlock.busy = false ∧ inBlock.homing = none ∧ HasPeriod inBlock.cfg inBlock.cfg.minimumStepsPerMinute ∧
      ¬HasPeriod noPeriod noPeriod.minimumStepsPerMinute := by decide

/-- A block under execution has the invariant, and its next step event is a step. -/
theorem witness_StepKeepsTheInvariant : Invariant inBlock ∧ ∃ t, step inBlock = .next t :=
  ⟨{ cfgValid := by decide
     timer := by decide
     pwm := by decide
     busy := by decide
     homing := fun _ h => by cases h
     head := fun blk h => by
       cases h
       exact ⟨rfl, v20Record, [], rfl, by decide⟩
     vouched := ⟨fun _ blk h => (by cases h; decide), fun b h => by cases h; decide⟩
     queue := by decide
     counters := by decide }, _, rfl⟩

theorem witness_ResetHasTheInvariant : Config.exampleValues.Valid := by decide

/-- The registers of V20's block are in range before its first step event, and that event is a step. -/
theorem witness_StepKeepsMotionInRange : MotionInRange inBlock ∧ ∃ t, step inBlock = .next t := by
  refine ⟨?_, _, rfl⟩
  intro k b h _
  cases k <;> cases h
  exact ⟨fun a => by cases a <;> decide, by decide, by decide⟩

theorem witness_OnlyStartProcessingLeavesIdle :
    ∃ t, step (withHostOp [0x01]) = .next t ∧ (withHostOp [0x01]).processingFlag = false ∧ t.processingFlag = true :=
  ⟨_, rfl, rfl, rfl⟩

theorem witness_OnlyResumeOrInitClearsAStop :
    ∃ t, step { withHostOp [0x07] with stopRequested := true } = .next t ∧
      ({ withHostOp [0x07] with stopRequested := true } : State).stopRequested = true ∧ t.stopRequested = false :=
  ⟨_, rfl, rfl, rfl⟩

/-- A step event, and a `set_position` that occurs. -/
theorem witness_PositionFollowsThePulses :
    (∃ t, step fire = .next t ∧ t.pulses.x = fire.pulses.x + 1) ∧
      ∃ t, step (withHostOp (encode (.setPosition 0 0 0))) = .next t := ⟨⟨_, rfl, rfl⟩, _, rfl⟩

theorem witness_ParametersAndInputsAreNotWritten :
    ∃ t, step { inBlock with agenda := [.senseChange xLimit] } = .next t ∧ t.sense ≠ inBlock.sense :=
  ⟨_, rfl, by decide⟩

theorem witness_LaserPinRisesOnlyInALaserPulse :
    ∃ t, step { doorOpen with sense := Sense.clear } = .next t ∧ doorOpen.laserPin = false ∧ t.laserPin = true :=
  ⟨_, rfl, rfl, rfl⟩

end Sys2Proof.Tests
end

section
/-! The parameters and the sense inputs (R8, R47): every operation of the core keeps them, so every event but a change
of the inputs by the environment does, and so does every step. -/

namespace Sys2Proof.Machine

/-- From `s` to `t` neither a parameter (R8) nor a sense input (R47) changes. -/
structure KeepsParametersAndInputs (s t : State) : Prop where
  cfg : t.cfg = s.cfg
  sense : t.sense = s.sense

theorem KeepsParametersAndInputs.refl (s : State) : KeepsParametersAndInputs s s := ⟨rfl, rfl⟩

theorem KeepsParametersAndInputs.trans {s t u : State} (h : KeepsParametersAndInputs s t)
    (h' : KeepsParametersAndInputs t u) : KeepsParametersAndInputs s u :=
  ⟨h'.cfg.trans h.cfg, h'.sense.trans h.sense⟩

/-! ### The parts of an invocation -/

/-- `StepEnter` of a motion block, whether it fetches the block or finds it current (R224, R226). -/
theorem motionEnter_keepsParametersAndInputs (k : MotionKind) (b : MotionBlock) (s : State) :
    KeepsParametersAndInputs s (motionEnter k b s) := by
  cases hc : s.currentBlock with
  | none =>
    rw [motionEnter_of_fetch hc, bresenhamStep_eq, motionBlockInit_eq]
    exact ⟨rfl, rfl⟩
  | some blk =>
    rw [motionEnter_of_current (by rw [hc]; rfl), bresenhamStep_eq]
    exact ⟨rfl, rfl⟩

/-- `StepExit` of a motion block (R226). -/
theorem motionExit_keepsParametersAndInputs (k : MotionKind) (b : MotionBlock) (s : State) :
    KeepsParametersAndInputs s (motionExit k b s) := by
  rw [motionExit_frame]
  exact ⟨rfl, rfl⟩

/-- A block that answers a next state, motion or assist (R225, R230). -/
theorem exec_block_keepsParametersAndInputs {blk : Block} {s t : State} (h : exec blk.toInstr s = .next t) :
    KeepsParametersAndInputs s t := by
  obtain ⟨k, b, -, -, -, ⟨-, rfl⟩ | ⟨-, -, rfl⟩⟩ | ⟨v, rfl⟩ | ⟨v, rfl⟩ | ⟨v, rfl⟩ := exec_block_next h
  · exact motionEnter_keepsParametersAndInputs k b s
  · exact motionExit_keepsParametersAndInputs k b s
  · exact ⟨rfl, rfl⟩
  · exact ⟨rfl, rfl⟩
  · exact ⟨rfl, rfl⟩

/-- Steps 6 to 8: whichever block is run, or the underrun (R222, R223, R225). -/
theorem dispatchBlock_keepsParametersAndInputs {s t : State} (h : dispatchBlock s = .next t) :
    KeepsParametersAndInputs s t := by
  obtain ⟨blk, -, he⟩ | ⟨-, -, rfl⟩ | ⟨record, rest, blk, -, -, -, -, he⟩ := dispatchBlock_next h
  · exact exec_block_keepsParametersAndInputs he
  · exact ⟨rfl, rfl⟩
  · exact exec_block_keepsParametersAndInputs he

/-- The cut of step 4 and the laser pulse of step 5 (R220, R191). -/
theorem preamble_keepsParametersAndInputs (s : State) :
    KeepsParametersAndInputs s (beamStepPulse (interlockCut s)) := by
  rw [preamble_frame]
  exact ⟨rfl, rfl⟩

/-- The limit return of step 4, after the cut (R220). -/
theorem limitReturn_keepsParametersAndInputs (kind : StopStatus) (s : State) :
    KeepsParametersAndInputs s (limitReturn kind (interlockCut s)) := by
  rw [limitReturn_frame, (interlockCut_frame s).1]
  exact ⟨rfl, rfl⟩

/-- An invocation of the step timer, on each of its paths (R219, R220, R229). -/
theorem stepEnter_keepsParametersAndInputs {s t : State} (h : stepEnter s = .next t) :
    KeepsParametersAndInputs s t := by
  obtain ⟨-, rfl⟩ | ⟨-, kind, -, rfl⟩ | ⟨-, -, hd⟩ := stepEnter_next h
  · exact ⟨rfl, rfl⟩
  · exact limitReturn_keepsParametersAndInputs kind s
  · exact (preamble_keepsParametersAndInputs s).trans (dispatchBlock_keepsParametersAndInputs hd)

/-! ### Homing and host operations -/

/-- One iteration of the homing loop (R259). -/
theorem homingIteration_keepsParametersAndInputs (h : Homing) (s : State) :
    KeepsParametersAndInputs s (homingIteration h s) := by
  obtain ⟨-, e⟩ | ⟨-, -, e⟩ | ⟨-, -, e⟩ := homingIteration_cases h s <;> rw [e] <;> exact ⟨rfl, rfl⟩

/-- `init()` (R340), which writes registers only. -/
theorem initialise_keepsParametersAndInputs (s : State) : KeepsParametersAndInputs s (initialise s) := by
  rw [initialise_eq, initOutputs_eq, setStepRate_eq]
  exact ⟨rfl, rfl⟩

/-- Every host operation (R91). -/
theorem HostEffect.keepsParametersAndInputs {s t : State} {i : Instr} (h : HostEffect s i t) :
    KeepsParametersAndInputs s t := by
  cases h with
  | init _ => exact initialise_keepsParametersAndInputs s
  | requestStop kind =>
    rw [(requestStop_frame kind s).1]
    exact ⟨rfl, rfl⟩
  | _ => exact ⟨rfl, rfl⟩

/-! ### Events and steps -/

/-- Every event keeps the parameters and the inputs, but for a change of the inputs by the environment, which writes
the inputs alone (R47). -/
theorem EventEffect.keepsParametersAndInputs_or {s t : State} {e : Event} (h : EventEffect s t e) :
    KeepsParametersAndInputs s t ∨ ∃ sense, e = .senseChange sense ∧ t = { s with sense := sense } := by
  cases h with
  | senseChange sense ht => exact .inr ⟨sense, rfl, ht⟩
  | invocation _ _ _ ht =>
    have hstamp : KeepsParametersAndInputs s (stampFire s) := ⟨rfl, rfl⟩
    exact .inl (hstamp.trans (stepEnter_keepsParametersAndInputs ht))
  | stepExit k b _ _ _ _ _ ht => exact .inl (ht ▸ motionExit_keepsParametersAndInputs k b s)
  | homingIter l _ ht =>
    have hadvance : KeepsParametersAndInputs s (advanceTo .homingIter s) := ⟨rfl, rfl⟩
    exact .inl (ht ▸ hadvance.trans (homingIteration_keepsParametersAndInputs l _))
  | hostOp _ _ _ _ _ ht => exact .inl ht.keepsParametersAndInputs
  | droppedTick _ _ _ ht => exact .inl (ht ▸ ⟨rfl, rfl⟩)
  | pulseResetFire _ ht => exact .inl (ht ▸ ⟨rfl, rfl⟩)
  | beamResetFire _ ht => exact .inl (ht ▸ ⟨rfl, rfl⟩)
  | plannerPush _ _ ht => exact .inl (ht ▸ ⟨rfl, rfl⟩)
  | rasterPush _ ht => exact .inl (ht ▸ ⟨rfl, rfl⟩)
  | clockAdvance _ ht => exact .inl (ht ▸ ⟨rfl, rfl⟩)

/-- The core never takes a change of the sense inputs by itself (R313): that event is the environment's. -/
theorem ownNextEvent_ne_senseChange (s : State) (sense : Sense) : ownNextEvent s ≠ some (.senseChange sense) := by
  intro h
  obtain ⟨e, -⟩ | ⟨e, -⟩ | ⟨e, -⟩ | ⟨e, -⟩ | ⟨e, -⟩ := ownNextEvent_some h <;> cases e

/-- A step keeps the parameters and the inputs, or it is the change of the inputs that the agenda orders next. -/
theorem step_keepsParametersAndInputs_or {s t : State} (h : step s = .next t) :
    KeepsParametersAndInputs s t ∨
      ∃ sense rest, s.agenda = .senseChange sense :: rest ∧ t = { s with agenda := rest, sense := sense } := by
  obtain ⟨-, bytes, rest, -, -, -, rfl⟩ | ⟨-, e, rest, ha, -, he⟩ | ⟨-, e, ho, he⟩ | ⟨-, -, rfl⟩ := step_next h
  · have hready : KeepsParametersAndInputs s { s with agenda := rest, busy := false, homing := none } := ⟨rfl, rfl⟩
    exact .inl (hready.trans (initialise_keepsParametersAndInputs _))
  · have htake : KeepsParametersAndInputs s { s with agenda := rest } := ⟨rfl, rfl⟩
    obtain hk | ⟨sense, rfl, ht⟩ := he.keepsParametersAndInputs_or
    · exact .inl (htake.trans hk)
    · exact .inr ⟨sense, rest, ha, ht⟩
  · obtain hk | ⟨sense, rfl, -⟩ := he.keepsParametersAndInputs_or
    · exact .inl hk
    · exact absurd ho (ownNextEvent_ne_senseChange s sense)
  · exact .inl (.refl _)

/-- Settles O59, by the ways a step can go: only an ordered change of the inputs writes them, and nothing writes the
parameters. -/
theorem parametersAndInputsAreNotWritten : Obligations.ParametersAndInputsAreNotWritten := by
  intro s t h
  obtain ⟨hcfg, hsense⟩ | ⟨sense, rest, ha, rfl⟩ := step_keepsParametersAndInputs_or h
  · exact ⟨hcfg, .inl hsense⟩
  · exact ⟨rfl, .inr ⟨sense, rest, ha, rfl⟩⟩

end Sys2Proof.Machine
end

section
/-! The invariant of every step (R21, R23 to R25, R28, R34, R35, R75, R83, R113, R197, R264). Each operation is one record
update, so each lemma here proves the conjuncts of `Invariant` that the update touches; `{ h with … }` takes the others
from the state before. -/

namespace Sys2Proof.Machine

/-! ### The core between blocks -/

/-- With no homing under way there is nothing to ask of it. -/
theorem HomingAlone.of_none {s : State} (h : s.homing = none) : HomingAlone s := by
  intro l hl
  rw [h] at hl
  cases hl

/-- With no step event under way there is nothing to ask of `busy`. -/
theorem BusyInsideStep.of_not_busy {s : State} (h : s.busy = false) : BusyInsideStep s := by
  intro hb
  rw [h] at hb
  cases hb

/-- An idle core (no block current, no step event, no homing) has the invariant if its other registers are good. -/
theorem Invariant.of_idle {s : State} (hv : s.cfg.Valid) (ht : TimerConsistent s) (hp : PwmInRange s)
    (hc : s.currentBlock = none) (hb : s.busy = false) (hh : s.homing = none) (hq : QueueWhole s)
    (hn : CountersFit s) : Invariant s where
  cfgValid := hv
  timer := ht
  pwm := hp
  busy := BusyInsideStep.of_not_busy hb
  homing := .of_none hh
  head blk h := by simp [hc] at h
  vouched := ⟨fun _ blk h => by simp [hc] at h, fun b h => by simp [hc] at h⟩
  queue := hq
  counters := hn

/-- A valid `EVERY` is positive, so the value 1 that `init()` gives `pwm_counter` is in its range (R8, R35). -/
theorem one_le_beamEvery {c : Config} (h : c.Valid) : 1 ≤ c.beamEvery := by
  obtain ⟨-, -, -, -, -, ⟨hevery, -⟩, -⟩ := h
  exact hevery

/-- Programming the step timer returns the period it programs (R25, R133, R135). -/
theorem setStepRate_timerConsistent (r : Nat) (s : State) : TimerConsistent (setStepRate r s) := rfl

/-- `init()` of a core that runs no homing leaves it idle, with the timer it programs (R340). -/
theorem initialise_invariant {s : State} (h : Invariant s) (hh : s.homing = none) : Invariant (initialise s) := by
  rw [initialise_eq, initOutputs_eq]
  exact .of_idle h.cfgValid (setStepRate_timerConsistent _ s) ⟨Nat.le_refl 1, one_le_beamEvery h.cfgValid⟩ rfl rfl hh
    h.queue h.counters

/-- Discarding the head leaves whole records (R73, R83). -/
theorem queueWhole_of_tail {s t : State} (h : QueueWhole s) (ht : t.queue = s.queue.tail) : QueueWhole t := by
  intro record hr
  rw [ht] at hr
  exact h record (List.mem_of_mem_tail hr)

/-- The stop path flushes the queue and abandons the block (R219). -/
theorem takeStop_invariant {s : State} (h : Invariant s) (hh : s.homing = none) : Invariant (takeStop s) :=
  .of_idle h.cfgValid h.timer h.pwm rfl rfl hh (fun _ hr => by cases hr) h.counters

/-- The underrun finds no block current and leaves none (R223). -/
theorem underrun_invariant {s : State} (h : Invariant s) (hc : s.currentBlock = none) (hh : s.homing = none) :
    Invariant (underrun s) :=
  .of_idle h.cfgValid h.timer h.pwm hc rfl hh h.queue h.counters

/-- The end of an assist block leaves no block current (R230). -/
theorem finishAssist_invariant {s : State} (h : Invariant s) (hh : s.homing = none) : Invariant (finishAssist s) :=
  .of_idle h.cfgValid h.timer h.pwm rfl rfl hh (queueWhole_of_tail h.queue rfl) h.counters

/-! ### The parts of an invocation -/

/-- The cut of step 4 writes registers the invariant does not read (R220). -/
theorem interlockCut_invariant {s : State} (h : Invariant s) : Invariant (interlockCut s) := by
  rw [(interlockCut_frame s).1]
  exact { h with }

/-- Step 5 writes `pwm_counter`, which stays in its range (R35, R191). -/
theorem beamStepPulse_invariant {s : State} (h : Invariant s) : Invariant (beamStepPulse s) := by
  obtain ⟨hlow, hhigh⟩ := h.pwm
  rw [beamStepPulse_frame]
  exact { h with pwm := beamStepPulse_pwmCounter hlow hhigh }

/-- The limit return writes the stop registers and clears `busy` (R220). -/
theorem limitReturn_invariant {s : State} (h : Invariant s) (hh : s.homing = none) (kind : StopStatus) :
    Invariant (limitReturn kind s) := by
  rw [limitReturn_frame]
  exact { h with busy := BusyInsideStep.of_not_busy rfl, homing := .of_none hh }

/-- `StepEnter` of a current block drives the pins and sets `busy` (R226, R34). -/
theorem motionEnter_current_invariant {s : State} {k : MotionKind} {b : MotionBlock} (h : Invariant s)
    (hc : s.currentBlock = some (k.block b)) (hh : s.homing = none) : Invariant (motionEnter k b s) := by
  obtain ⟨hm, -⟩ := h.head _ hc
  rw [motionEnter_of_current (by rw [hc]; rfl), bresenhamStep_eq]
  exact { h with busy := fun _ => ⟨hm, hh⟩, homing := .of_none hh }

/-- A motion block of either kind is one `motionCurrent` sees (R215). -/
theorem motionCurrent_of_currentBlock {s : State} {k : MotionKind} {b : MotionBlock}
    (h : s.currentBlock = some (k.block b)) : motionCurrent s = true := by
  cases k <;> simp [motionCurrent, h, MotionKind.block]

/-- `StepEnter` of the head of the queue makes it the current block (R75, R222), one the machine runs and can dim, and
initialises its registers (R224). -/
theorem motionEnter_fetch_invariant {s : State} {k : MotionKind} {b : MotionBlock} {record : List Byte}
    {rest : List (List Byte)} (h : Invariant s) (hc : s.currentBlock = none) (hh : s.homing = none)
    (hq : s.queue = record :: rest) (hd : decodeBlock record = .ok (k.block b)) (hr : Runs s.cfg (k.block b))
    (hz : Dimmable k b) : Invariant (motionEnter k b s) := by
  rw [motionEnter_of_fetch hc, bresenhamStep_eq, motionBlockInit_eq]
  exact { h with
    timer := rfl
    busy := fun _ => ⟨motionCurrent_of_currentBlock rfl, hh⟩
    homing := .of_none hh
    head := fun blk hb => by
      cases hb
      exact ⟨motionCurrent_of_currentBlock rfl, record, rest, hq, hd⟩
    vouched := by
      refine ⟨fun hs blk hb => ?_, fun b' hb => ?_⟩
      · cases hb
        exact hr hs
      · cases k <;> cases hb
        exact hz rfl
    counters := ⟨Nat.two_pow_pos 32, b.initialRate.isLt, Nat.two_pow_pos 32⟩ }

/-- The speed profile keeps the period the programmed one: it programs the timer or leaves it (R25, R158). -/
theorem speedProfile_timerConsistent (k : MotionKind) (b : MotionBlock) {s : State} (h : TimerConsistent s) :
    TimerConsistent (speedProfile k b s) := by
  obtain ⟨-, e⟩ | ⟨-, e⟩ := speedProfile_cases k b s <;> rw [e]
  · rw [runPhase_frame]
    exact h
  · exact setStepRate_timerConsistent _ _

/-- A `StepExit` that can be counted keeps the counters in 32 bits (R23, R24, R28): the rate is the one before or comes
from the block's own fields, and so does the bound of the pixel counter. -/
theorem motionExit_countersFit (k : MotionKind) (b : MotionBlock) {s : State} (h : CountersFit s) (hf : CountFits s) :
    CountersFit (motionExit k b s) := by
  obtain ⟨-, hrate, hpixel⟩ := h
  have hn := b.nominalRate.isLt
  have hl := b.finalRate.isLt
  have hrate' := (runPhase_rate (lo := 0) (hi := 2 ^ 32 - 1) (b := b) (s := countEvent s) (Nat.zero_le _) (by omega)
    (Nat.zero_le _) (by omega) (Nat.zero_le _) (Nat.le_sub_one_of_lt hrate)).2
  have hpixel' : (motionExit k b s).pixelCounter < 2 ^ 32 := by
    have hs := b.pixelSteps.isLt
    obtain hx | hx := motionExit_pixelCounter k b s <;> omega
  refine ⟨?_, ?_, hpixel'⟩
  · rw [motionExit_frame]
    exact hf
  · rw [motionExit_frame]
    exact Nat.lt_of_le_sub_one (by decide) hrate'

/-- `StepExit` ends the step event (R226): the block completes, which discards the head (R228), or both stay. -/
theorem motionExit_invariant {s : State} (k : MotionKind) (b : MotionBlock) (h : Invariant s) (hh : s.homing = none)
    (hf : CountFits s) : Invariant (motionExit k b s) := by
  have ht : TimerConsistent (speedProfile k b (countEvent s)) := speedProfile_timerConsistent k b h.timer
  have hn := motionExit_countersFit k b h.counters hf
  rw [motionExit_frame] at hn ⊢
  by_cases hdone : s.stepEventsCompleted + 1 = eventCount b
  · simp only [if_pos hdone] at hn ⊢
    exact .of_idle h.cfgValid ht h.pwm rfl rfl hh (queueWhole_of_tail h.queue rfl) hn
  · simp only [if_neg hdone] at hn ⊢
    exact { h with timer := ht, busy := BusyInsideStep.of_not_busy rfl, homing := .of_none hh, counters := hn }

/-- A block run with `busy = 0` enters its step event, or is an assist block, which keeps the invariant (R225, R230). -/
theorem exec_block_enters_or_invariant {blk : Block} {s t : State} (h : Invariant s) (hb : s.busy = false)
    (hh : s.homing = none) (he : exec blk.toInstr s = .next t) :
    (∃ k b, blk = MotionKind.block k b ∧ Dimmable k b ∧ t = motionEnter k b s) ∨ Invariant t := by
  obtain ⟨k, b, rfl, hz, -, ⟨-, rfl⟩ | ⟨hb', -⟩⟩ | ⟨v, rfl⟩ | ⟨v, rfl⟩ | ⟨v, rfl⟩ := exec_block_next he
  · exact .inl ⟨k, b, rfl, hz, rfl⟩
  · rw [hb] at hb'
    cases hb'
  · exact .inr (finishAssist_invariant (s := controlAirAssist v s) { h with } hh)
  · exact .inr (finishAssist_invariant (s := controlAux1Assist v s) { h with } hh)
  · exact .inr (finishAssist_invariant (s := controlAux2Assist v s) { h with } hh)

/-- Steps 6 to 8: the current block, the head of the queue, or the underrun (R222, R223, R225). -/
theorem dispatchBlock_invariant {s t : State} (h : Invariant s) (hb : s.busy = false) (hh : s.homing = none)
    (hd : dispatchBlock s = .next t) : Invariant t := by
  obtain ⟨blk, hc, he⟩ | ⟨hc, -, rfl⟩ | ⟨record, rest, blk, hc, hq, hrec, hr, he⟩ := dispatchBlock_next hd
  · obtain ⟨k, b, rfl, -, rfl⟩ | ht := exec_block_enters_or_invariant h hb hh he
    · exact motionEnter_current_invariant h hc hh
    · exact ht
  · exact underrun_invariant h hc hh
  · obtain ⟨k, b, rfl, hz, rfl⟩ | ht := exec_block_enters_or_invariant h hb hh he
    · exact motionEnter_fetch_invariant h hc hh hq hrec ((blockRefusal_eq_none _ _).1 hr) hz
    · exact ht

/-- An invocation of the step timer, on each of its paths (R219, R220, R229). -/
theorem stepEnter_invariant {s t : State} (h : Invariant s) (hb : s.busy = false) (hh : s.homing = none)
    (ht : stepEnter s = .next t) : Invariant t := by
  obtain ⟨-, rfl⟩ | ⟨-, kind, -, rfl⟩ | ⟨-, -, hd⟩ := stepEnter_next ht
  · exact takeStop_invariant h hh
  · exact limitReturn_invariant (interlockCut_invariant h) (by rw [(interlockCut_frame s).1]; exact hh) kind
  · exact dispatchBlock_invariant (beamStepPulse_invariant (interlockCut_invariant h)) (by rw [preamble_frame]; exact hb)
      (by rw [preamble_frame]; exact hh) hd

/-! ### Homing and host operations -/

/-- A disarmed core may run a homing whose allowances are within the overshoot count (R264, R257). -/
theorem Invariant.withHoming {s : State} (h : Invariant s) (hp : s.processingFlag = false) (hb : s.busy = false)
    {l : Homing} (hl : ∀ a : Axis, l.allowance.get a ≤ homingOvershoot) : Invariant { s with homing := some l } :=
  { h with
    busy := BusyInsideStep.of_not_busy hb
    homing := fun l' hl' => by
      cases hl'
      exact ⟨hp, hb, hl⟩ }

/-- A pass starts with the full overshoot count on every axis (R258). -/
theorem startPass_invariant {s : State} (h : Invariant s) (hp : s.processingFlag = false) (hb : s.busy = false)
    (reverse : Bool) : Invariant (startPass reverse s) := by
  have hl : ∀ a : Axis, (PerAxis.all homingOvershoot).get a ≤ homingOvershoot := by
    intro a
    cases a <;> exact Nat.le_refl _
  rw [startPass_eq]
  exact { h.withHoming hp hb (l := ⟨reverse, 0b111#3, PerAxis.all homingOvershoot, s.now⟩) hl with }

/-- The check of an iteration never raises an allowance (R259). -/
theorem homingCheck_allowance_le (h : Homing) (s : State) (a : Axis) :
    (homingCheck h s).allowance.get a ≤ h.allowance.get a := by
  have hle : nextAllowance h s a ≤ h.allowance.get a := by
    unfold nextAllowance
    split <;> omega
  cases a <;> exact hle

/-- An iteration goes on with allowances no higher, starts the retract pass, or ends the operation (R256, R259). -/
theorem homingIteration_invariant {s : State} (h : Invariant s) {l : Homing} (hl : s.homing = some l) :
    Invariant (homingIteration l s) := by
  obtain ⟨hp, hb, hle⟩ := h.homing l hl
  obtain ⟨-, e⟩ | ⟨-, -, e⟩ | ⟨-, -, e⟩ := homingIteration_cases l s <;> rw [e]
  · exact { h.withHoming hp hb (l := { homingCheck l s with
      resumeAt := s.now + (pulseCycles s.cfg + homingWaitCycles s.cfg) })
      fun a => (homingCheck_allowance_le l s a).trans (hle a) with }
  · exact startPass_invariant h hp hb true
  · exact { h with busy := BusyInsideStep.of_not_busy hb, homing := .of_none rfl }

/-- Every host operation, on a core that runs no homing (R91). -/
theorem HostEffect.invariant {s t : State} {i : Instr} (he : HostEffect s i t) (h : Invariant s) (hb : s.busy = false)
    (hh : s.homing = none) : Invariant t := by
  cases he with
  | init _ => exact initialise_invariant h hh
  | startProcessing => exact { h with homing := .of_none hh }
  | stopProcessing => exact { h with homing := .of_none hh }
  | requestStop kind =>
    rw [(requestStop_frame kind s).1]
    exact { h with }
  | homingCycle hp => exact startPass_invariant h hp hb false
  | _ => exact { h with }

/-! ### Events and steps -/

/-- The enabling condition of a fire of the step timer, read off the two registers it looks at (R300). -/
theorem stepTimerEnabled_iff (s : State) : stepTimerEnabled s = true ↔ s.processingFlag = true ∧ s.homing = none := by
  simp [stepTimerEnabled]

/-- A push appends a whole record behind the head (R76, R83). -/
theorem plannerPush_invariant {s : State} (h : Invariant s) {record : List Byte} (hl : record.length = blockLength) :
    Invariant (plannerPush record s) :=
  { h with
    head := fun blk hc => by
      obtain ⟨hm, head, rest, hq, hd⟩ := h.head blk hc
      refine ⟨hm, head, rest ++ [record], ?_, hd⟩
      rw [plannerPush, hq]
      rfl
    queue := fun r hr => by
      obtain hr | hr := List.mem_append.1 hr
      · exact h.queue r hr
      · rw [List.mem_singleton.1 hr]
        exact hl }

/-- Every event (R300). -/
theorem EventEffect.invariant {s t : State} {e : Event} (he : EventEffect s t e) (h : Invariant s) : Invariant t := by
  cases he with
  | invocation hen _ hb ht =>
    have hstamp : Invariant (stampFire s) := { h with }
    obtain ⟨-, hh⟩ := (stepTimerEnabled_iff s).1 hen
    exact stepEnter_invariant hstamp hb hh ht
  | stepExit k b hb _ _ hf _ ht => exact ht ▸ motionExit_invariant k b h (h.busy hb).2 hf
  | homingIter l hl ht =>
    have hadvance : Invariant (advanceTo .homingIter s) := { h with }
    exact ht ▸ homingIteration_invariant hadvance hl
  | hostOp _ _ _ hb hh ht => exact ht.invariant h hb hh
  | plannerPush _ hl ht => exact ht ▸ plannerPush_invariant h hl
  | droppedTick _ _ _ ht => exact ht ▸ { h with }
  | pulseResetFire _ ht => exact ht ▸ { h with }
  | beamResetFire _ ht => exact ht ▸ { h with }
  | rasterPush _ ht => exact ht ▸ { h with }
  | senseChange _ ht => exact ht ▸ { h with }
  | clockAdvance _ ht => exact ht ▸ { h with }

/-- Settles O52, by the ways a step can go: the first `init()`, an event the agenda orders, one the core takes by
itself, or nothing. -/
theorem stepKeepsTheInvariant : Obligations.StepKeepsTheInvariant := by
  intro s t h hs
  obtain ⟨-, bytes, rest, -, -, -, rfl⟩ | ⟨-, e, rest, -, -, he⟩ | ⟨-, e, -, he⟩ | ⟨-, -, rfl⟩ := step_next hs
  · have hready : Invariant { s with agenda := rest, busy := false, homing := none } :=
      { h with busy := BusyInsideStep.of_not_busy rfl, homing := .of_none rfl }
    exact initialise_invariant hready rfl
  · have htake : Invariant { s with agenda := rest } := { h with }
    exact he.invariant htake
  · exact he.invariant h
  · exact h

/-! ### Reset -/

/-- `init()` leaves an idle core, whatever the valid configuration (R54, R340). -/
theorem initial_invariant {c : Config} (hv : c.Valid) : Invariant (State.initial c) :=
  .of_idle hv rfl ⟨Nat.le_refl 1, one_le_beamEvery hv⟩ rfl rfl rfl (fun _ hr => by cases hr)
    ⟨Nat.two_pow_pos 32, Nat.two_pow_pos 32, Nat.two_pow_pos 32⟩

/-- Settles O53: the example parameters of `State.reset` are one of the valid configurations. -/
theorem resetHasTheInvariant : Obligations.ResetHasTheInvariant :=
  ⟨fun _ hv => initial_invariant hv, initial_invariant (by decide)⟩

/-- With no block current no register is asked to be in its range. -/
theorem MotionInRange.of_noBlock {s : State} (h : s.currentBlock = none) : MotionInRange s := by
  intro k b hb
  rw [h] at hb
  cases hb

/-- Settles O55: `init()` leaves no block current (R54). -/
theorem resetHasMotionInRange : Obligations.ResetHasMotionInRange :=
  ⟨fun _ => .of_noBlock rfl, .of_noBlock rfl⟩

end Sys2Proof.Machine
end

section
/-! The position and the pulses (R29, R49, R92, R171, R263, R365): the distributor is the one operation that emits pulses
and it moves each axis with its pulse; the other writes of the position are `init()`, `set_position` and the end of
homing, and they emit none. -/

namespace Sys2Proof.Machine

/-- From `s` to `t` each axis rests, or emits one pulse and moves by one unit (R171). -/
def FollowsPulses (s t : State) : Prop :=
  ∀ a : Axis,
    (t.pulses.get a = s.pulses.get a ∧ t.position.get a = s.position.get a) ∨
    (t.pulses.get a = s.pulses.get a + 1 ∧
      (t.position.get a = s.position.get a + 1 ∨ t.position.get a = s.position.get a - 1))

/-- An operation that writes neither register lets every axis rest. -/
theorem FollowsPulses.of_eq {s t : State} (hpulses : t.pulses = s.pulses) (hposition : t.position = s.position) :
    FollowsPulses s t := fun _ => .inl ⟨by rw [hpulses], by rw [hposition]⟩

/-- The host operation `i` wrote the position: `init()` zeroes it (R340), `set_position` gives its own (R282). -/
def HostWritesPosition (i : Instr) (s t : State) : Prop :=
  (i = .init ∧ t.position = ⟨0, 0, 0⟩) ∨
    ∃ x y z, i = .setPosition x y z ∧ t.position = (setPosition x y z s).position

/-- The retract pass of a homing ends, which zeroes the position (R263). -/
def EndsHoming (s t : State) : Prop :=
  ∃ h, s.homing = some h ∧ h.reverse = true ∧ t.homing = none ∧ t.position = ⟨0, 0, 0⟩

/-! ### The parts of an invocation -/

/-- Reading an axis of three computed values computes that one. -/
@[simp] theorem get_ofFn {α : Type} (f : Axis → α) (a : Axis) : (PerAxis.ofFn f).get a = f a := by cases a <;> rfl

/-- The distributor moves an axis exactly when it pulses it, in the direction of its dir bit (R171, R30). -/
theorem distribute_followsPulses (b : MotionBlock) (s : State) : FollowsPulses s (distribute b s) := by
  intro a
  simp only [distribute, get_ofFn, axisPosition]
  cases (pulsingAxes b s).get a
  · exact .inl ⟨rfl, rfl⟩
  · cases dirNegative b.directionBits a
    · exact .inr ⟨rfl, .inl rfl⟩
    · exact .inr ⟨rfl, .inr rfl⟩

/-- The distributor's step event adds the pins and the pulse shaper (R173), which are no position. -/
theorem bresenhamStep_followsPulses (b : MotionBlock) (s : State) : FollowsPulses s (bresenhamStep b s) := by
  rw [bresenhamStep_eq]
  exact distribute_followsPulses b s

/-- `StepEnter` of a motion block makes one step event, whether it fetches the block or finds it current (R226). -/
theorem motionEnter_followsPulses (k : MotionKind) (b : MotionBlock) (s : State) :
    FollowsPulses s (motionEnter k b s) := by
  cases hc : s.currentBlock with
  | none =>
    rw [motionEnter_of_fetch hc]
    exact bresenhamStep_followsPulses b (motionBlockInit k b (fetchBlock (k.block b) s))
  | some blk =>
    rw [motionEnter_of_current (by rw [hc]; rfl)]
    exact bresenhamStep_followsPulses b s

/-- `StepExit` writes no position (R226). -/
theorem motionExit_followsPulses (k : MotionKind) (b : MotionBlock) (s : State) :
    FollowsPulses s (motionExit k b s) := by
  rw [motionExit_frame]
  exact .of_eq rfl rfl

/-- A block that answers a next state, motion or assist (R225, R230). -/
theorem exec_block_followsPulses {blk : Block} {s t : State} (h : exec blk.toInstr s = .next t) :
    FollowsPulses s t := by
  obtain ⟨k, b, -, -, -, ⟨-, rfl⟩ | ⟨-, -, rfl⟩⟩ | ⟨v, rfl⟩ | ⟨v, rfl⟩ | ⟨v, rfl⟩ := exec_block_next h
  · exact motionEnter_followsPulses k b s
  · exact motionExit_followsPulses k b s
  · exact .of_eq rfl rfl
  · exact .of_eq rfl rfl
  · exact .of_eq rfl rfl

/-- Steps 6 to 8: whichever block is run, or the underrun (R222, R223, R225). -/
theorem dispatchBlock_followsPulses {s t : State} (h : dispatchBlock s = .next t) : FollowsPulses s t := by
  obtain ⟨blk, -, he⟩ | ⟨-, -, rfl⟩ | ⟨record, rest, blk, -, -, -, -, he⟩ := dispatchBlock_next h
  · exact exec_block_followsPulses he
  · exact .of_eq rfl rfl
  · exact exec_block_followsPulses he

/-- An invocation of the step timer, on each of its paths (R219, R220, R229). -/
theorem stepEnter_followsPulses {s t : State} (h : stepEnter s = .next t) : FollowsPulses s t := by
  obtain ⟨-, rfl⟩ | ⟨-, kind, -, rfl⟩ | ⟨-, -, hd⟩ := stepEnter_next h
  · exact .of_eq rfl rfl
  · rw [limitReturn_frame, (interlockCut_frame s).1]
    exact .of_eq rfl rfl
  · have hf := dispatchBlock_followsPulses hd
    rw [preamble_frame] at hf
    exact hf

/-! ### Homing and host operations -/

/-- An iteration leaves the position alone until the retract pass ends (R259, R263); its pulses are its own and not the
distributor's (R261). -/
theorem homingIteration_followsPulses_or {s : State} {l : Homing} (hl : s.homing = some l) :
    FollowsPulses s (homingIteration l s) ∨
      ((homingIteration l s).pulses = s.pulses ∧ EndsHoming s (homingIteration l s)) := by
  obtain ⟨-, e⟩ | ⟨-, -, e⟩ | ⟨-, hr, e⟩ := homingIteration_cases l s <;> rw [e]
  · exact .inl (.of_eq rfl rfl)
  · exact .inl (.of_eq rfl rfl)
  · exact .inr ⟨rfl, l, hl, hr, rfl, rfl⟩

/-- `init()` zeroes the position and leaves the ghost counters (R340, R49). -/
theorem initialise_position (s : State) :
    (initialise s).pulses = s.pulses ∧ (initialise s).position = ⟨0, 0, 0⟩ := by
  rw [initialise_eq, initOutputs_eq, setStepRate_eq]
  exact ⟨rfl, rfl⟩

/-- A host operation emits no pulse, and two of them write the position (R92). -/
theorem HostEffect.followsPulses_or {s t : State} {i : Instr} (h : HostEffect s i t) :
    FollowsPulses s t ∨ (t.pulses = s.pulses ∧ HostWritesPosition i s t) := by
  cases h with
  | init _ =>
    obtain ⟨hpulses, hposition⟩ := initialise_position s
    exact .inr ⟨hpulses, .inl ⟨rfl, hposition⟩⟩
  | setPosition x y z => exact .inr ⟨rfl, .inr ⟨x, y, z, rfl, rfl⟩⟩
  | requestStop kind =>
    rw [(requestStop_frame kind s).1]
    exact .inl (.of_eq rfl rfl)
  | _ => exact .inl (.of_eq rfl rfl)

/-! ### Events and steps -/

/-- What an event does to the position: it follows the pulses, or a host operation that occurs or the end of a homing
writes it. -/
theorem EventEffect.followsPulses_or {s t : State} {e : Event} (h : EventEffect s t e) :
    FollowsPulses s t ∨
    (t.pulses = s.pulses ∧ ∃ bytes i, e = .hostOp bytes ∧ decode .hostPort bytes = .ok i ∧ s.busy = false ∧
      s.homing = none ∧ HostWritesPosition i s t) ∨
    (t.pulses = s.pulses ∧ EndsHoming s t) := by
  cases h with
  | invocation _ _ _ ht =>
    have hf : FollowsPulses (stampFire s) t := stepEnter_followsPulses ht
    exact .inl hf
  | stepExit k b _ _ _ _ _ ht => exact .inl (ht ▸ motionExit_followsPulses k b s)
  | homingIter l hl ht =>
    have hadvance : (advanceTo .homingIter s).homing = some l := hl
    obtain hf | hend := homingIteration_followsPulses_or hadvance
    · exact .inl (ht ▸ hf)
    · exact .inr (.inr (ht ▸ hend))
  | hostOp bytes i hd hb hh ht =>
    obtain hf | ⟨hpulses, hw⟩ := ht.followsPulses_or
    · exact .inl hf
    · exact .inr (.inl ⟨hpulses, bytes, i, rfl, hd, hb, hh, hw⟩)
  | droppedTick _ _ _ ht => exact .inl (ht ▸ FollowsPulses.of_eq rfl rfl)
  | pulseResetFire _ ht => exact .inl (ht ▸ FollowsPulses.of_eq rfl rfl)
  | beamResetFire _ ht => exact .inl (ht ▸ FollowsPulses.of_eq rfl rfl)
  | plannerPush _ _ ht => exact .inl (ht ▸ FollowsPulses.of_eq rfl rfl)
  | rasterPush _ ht => exact .inl (ht ▸ FollowsPulses.of_eq rfl rfl)
  | senseChange _ ht => exact .inl (ht ▸ FollowsPulses.of_eq rfl rfl)
  | clockAdvance _ ht => exact .inl (ht ▸ FollowsPulses.of_eq rfl rfl)

/-- The core never takes a host operation by itself (R313): the host orders it. -/
theorem ownNextEvent_ne_hostOp (s : State) (bytes : List Byte) : ownNextEvent s ≠ some (.hostOp bytes) := by
  intro h
  obtain ⟨e, -⟩ | ⟨e, -⟩ | ⟨e, -⟩ | ⟨e, -⟩ | ⟨e, -⟩ := ownNextEvent_some h <;> cases e

/-- Settles O58, by the ways a step can go: the first `init()`, an event the agenda orders, one the core takes by
itself (no host operation), or nothing. -/
theorem positionFollowsThePulses : Obligations.PositionFollowsThePulses := by
  intro s t h
  obtain ⟨hi, bytes, rest, ha, hd, -, rfl⟩ | ⟨hi, e, rest, ha, -, he⟩ | ⟨-, e, ho, he⟩ | ⟨-, -, rfl⟩ := step_next h
  · obtain ⟨hpulses, hposition⟩ := initialise_position { s with agenda := rest, busy := false, homing := none }
    have hready : s.initialised = true → s.busy = false ∧ s.homing = none := by simp [hi]
    exact .inr (.inl ⟨hpulses, bytes, rest, ha, .inl ⟨hd, hready, hposition⟩⟩)
  · obtain hf | ⟨hpulses, bytes, i, rfl, hd, hb, hh, hw⟩ | hend := he.followsPulses_or
    · exact .inl hf
    · refine .inr (.inl ⟨hpulses, bytes, rest, ha, ?_⟩)
      obtain ⟨rfl, hposition⟩ | ⟨x, y, z, rfl, hposition⟩ := hw
      · exact .inl ⟨hd, fun _ => ⟨hb, hh⟩, hposition⟩
      · exact .inr ⟨x, y, z, hd, hi, hb, hh, hposition⟩
    · exact .inr (.inr hend)
  · obtain hf | ⟨-, bytes, -, rfl, -⟩ | hend := he.followsPulses_or
    · exact .inl hf
    · exact absurd ho (ownNextEvent_ne_hostOp s bytes)
    · exact .inr (.inr hend)
  · exact .inl (FollowsPulses.of_eq rfl rfl)

end Sys2Proof.Machine
end

section
/-! The laser pin (R43, R191, R192, R219, R220): of all the operations only a laser pulse drives it high, in step 5 of an
invocation, and what follows in the same invocation keeps the pin and the trace entry. -/

namespace Sys2Proof.Machine

/-! ### Steps 4 and 5 -/

/-- A laser pulse that leaves the pin high has an intensity and writes the pin (R192). -/
theorem issueLaserPulse_high {s : State} (h : (issueLaserPulse s).laserPin = true) :
    s.laserDuty ≠ 0 ∧ s.trace ++ [.laserPin true] <+: (issueLaserPulse s).trace := by
  unfold issueLaserPulse at h ⊢
  split at h
  · cases h
  · rename_i hduty
    rw [if_neg hduty]
    refine ⟨hduty, ?_⟩
    split
    · exact List.prefix_refl _
    · exact List.prefix_append _ _

/-- Step 5 raises the pin only when a pulse is due (R191). -/
theorem beamStepPulse_raises {s : State} (hlow : s.laserPin = false) (hhigh : (beamStepPulse s).laserPin = true) :
    s.cfg.beamEvery ≤ s.pwmCounter ∧ s.laserDuty ≠ 0 ∧ s.trace ++ [.laserPin true] <+: (beamStepPulse s).trace := by
  unfold beamStepPulse at hhigh ⊢
  by_cases hdue : laserPulseDue s = true
  · rw [if_pos hdue] at hhigh ⊢
    exact ⟨of_decide_eq_true hdue, issueLaserPulse_high hhigh⟩
  · rw [if_neg hdue] at hhigh
    exact absurd (hlow.symm.trans hhigh) Bool.false_ne_true

/-- With an interlock input asserted the cut of step 4 leaves step 5 no intensity (R220), so a pulse that raises the pin
finds none asserted. -/
theorem preamble_raises {s : State} (hlow : s.laserPin = false)
    (hhigh : (beamStepPulse (interlockCut s)).laserPin = true) :
    interlockOpen s = false ∧ s.cfg.beamEvery ≤ s.pwmCounter ∧ s.laserDuty ≠ 0 ∧
      s.trace ++ [.laserPin true] <+: (beamStepPulse (interlockCut s)).trace := by
  cases hopen : interlockOpen s
  · have hcut : interlockCut s = s := by simp [interlockCut, hopen]
    rw [hcut] at hhigh ⊢
    exact ⟨rfl, beamStepPulse_raises hlow hhigh⟩
  · rw [interlockCut_of_open hopen] at hhigh
    obtain ⟨-, hduty, -⟩ := beamStepPulse_raises (by exact hlow) hhigh
    exact absurd rfl hduty

/-! ### Steps 6 to 8 -/

/-- From `s` to `t` the laser pin keeps its value and the trace its entries. -/
structure KeepsLaserPin (s t : State) : Prop where
  pin : t.laserPin = s.laserPin
  trace : s.trace <+: t.trace

/-- The distributor writes the step and dir pins (R173). -/
theorem bresenhamStep_keepsLaserPin (b : MotionBlock) (s : State) : KeepsLaserPin s (bresenhamStep b s) := by
  rw [bresenhamStep_eq]
  exact ⟨rfl, List.prefix_append _ _⟩

/-- `motion_block_init()` programs the step timer and writes the intensity, not the pin (R224). -/
theorem motionBlockInit_keepsLaserPin (k : MotionKind) (b : MotionBlock) (s : State) :
    KeepsLaserPin s (motionBlockInit k b s) :=
  ⟨rfl, (List.prefix_append _ _).trans (List.prefix_append _ _)⟩

/-- `StepEnter` of a motion block (R226). -/
theorem motionEnter_keepsLaserPin (k : MotionKind) (b : MotionBlock) (s : State) :
    KeepsLaserPin s (motionEnter k b s) := by
  cases hc : s.currentBlock with
  | none =>
    rw [motionEnter_of_fetch hc]
    obtain ⟨hpin, htrace⟩ := motionBlockInit_keepsLaserPin k b (fetchBlock (k.block b) s)
    obtain ⟨hpin', htrace'⟩ := bresenhamStep_keepsLaserPin b (motionBlockInit k b (fetchBlock (k.block b) s))
    exact ⟨hpin'.trans hpin, htrace.trans htrace'⟩
  | some blk =>
    rw [motionEnter_of_current (by rw [hc]; rfl)]
    exact { bresenhamStep_keepsLaserPin b s with }

/-- A block run with `busy = 0` (R225, R230). -/
theorem exec_block_keepsLaserPin {blk : Block} {s t : State} (hb : s.busy = false)
    (h : exec blk.toInstr s = .next t) : KeepsLaserPin s t := by
  obtain ⟨k, b, -, -, -, ⟨-, rfl⟩ | ⟨hb', -⟩⟩ | ⟨v, rfl⟩ | ⟨v, rfl⟩ | ⟨v, rfl⟩ := exec_block_next h
  · exact motionEnter_keepsLaserPin k b s
  · rw [hb] at hb'
    cases hb'
  · exact ⟨rfl, (List.prefix_append _ _).trans (List.prefix_append _ _)⟩
  · exact ⟨rfl, (List.prefix_append _ _).trans (List.prefix_append _ _)⟩
  · exact ⟨rfl, (List.prefix_append _ _).trans (List.prefix_append _ _)⟩

/-- Steps 6 to 8 keep the pin as step 5 left it (R222, R223, R225). -/
theorem dispatchBlock_keepsLaserPin {s t : State} (hb : s.busy = false) (h : dispatchBlock s = .next t) :
    KeepsLaserPin s t := by
  obtain ⟨blk, -, he⟩ | ⟨-, -, rfl⟩ | ⟨record, rest, blk, -, -, -, -, he⟩ := dispatchBlock_next h
  · exact exec_block_keepsLaserPin hb he
  · exact ⟨rfl, List.prefix_refl _⟩
  · exact exec_block_keepsLaserPin hb he

/-! ### The invocation -/

/-- An invocation from `s` to `t` passed steps 3 and 4 and issued a laser pulse that wrote the pin high (R191, R192). -/
structure RaisesLaserPin (s t : State) : Prop where
  stop : s.stopRequested = false
  limits : limitHit s = none
  interlock : interlockOpen s = false
  duty : s.laserDuty ≠ 0
  due : s.cfg.beamEvery ≤ s.pwmCounter
  trace : s.trace ++ [.laserPin true] <+: t.trace

/-- The entry of the raised pin is new in the trace (R49). -/
theorem RaisesLaserPin.mem_newTrace {s t : State} (h : RaisesLaserPin s t) : Obs.laserPin true ∈ newTrace s t := by
  obtain ⟨later, ht⟩ := h.trace
  simp [newTrace, ← ht]

/-- An invocation raises the pin in its step 5 only: the stop path and the limit return leave it (R219, R220). -/
theorem stepEnter_raises {s t : State} (hb : s.busy = false) (hlow : s.laserPin = false) (hhigh : t.laserPin = true)
    (h : stepEnter s = .next t) : RaisesLaserPin s t := by
  have hkept : ∀ {P : Prop}, s.laserPin = true → P := by
    intro P hs
    rw [hlow] at hs
    cases hs
  obtain ⟨-, rfl⟩ | ⟨-, kind, -, rfl⟩ | ⟨hstop, hlimits, hd⟩ := stepEnter_next h
  · exact hkept hhigh
  · rw [limitReturn_frame, (interlockCut_frame s).1] at hhigh
    exact hkept hhigh
  · obtain ⟨hpin, htrace⟩ := dispatchBlock_keepsLaserPin (by rw [preamble_frame]; exact hb) hd
    obtain ⟨hopen, hdue, hduty, hwritten⟩ := preamble_raises hlow (hpin ▸ hhigh)
    exact ⟨hstop, hlimits, hopen, hduty, hdue, hwritten.trans htrace⟩

/-! ### Events and steps -/

/-- No host operation raises the pin: `init()` drops it and the others leave it (R340, R91). -/
theorem HostEffect.laserPin_of_high {s t : State} {i : Instr} (h : HostEffect s i t) (hhigh : t.laserPin = true) :
    s.laserPin = true := by
  cases h with
  | init _ =>
    rw [initialise_eq, initOutputs_eq] at hhigh
    cases hhigh
  | requestStop kind =>
    rw [(requestStop_frame kind s).1] at hhigh
    exact hhigh
  | _ => exact hhigh

/-- A homing iteration leaves the pin (R259). -/
theorem homingIteration_laserPin (l : Homing) (s : State) : (homingIteration l s).laserPin = s.laserPin := by
  obtain ⟨-, e⟩ | ⟨-, -, e⟩ | ⟨-, -, e⟩ := homingIteration_cases l s
  · rw [e]
  · rw [e, startPass_eq]
  · rw [e]

/-- An event that leaves the pin high found it high, or is an invocation of an armed and ready step timer that raised
it. -/
theorem EventEffect.laserPin_or_raises {s t : State} {e : Event} (h : EventEffect s t e) (hhigh : t.laserPin = true) :
    s.laserPin = true ∨ (stepTimerEnabled s = true ∧ s.busy = false ∧ RaisesLaserPin s t) := by
  cases h with
  | invocation hen _ hb ht =>
    cases hlow : s.laserPin
    · have hraised : RaisesLaserPin (stampFire s) t := stepEnter_raises hb hlow hhigh ht
      exact .inr ⟨hen, hb, { hraised with }⟩
    · exact .inl rfl
  | stepExit k b _ _ _ _ _ ht =>
    rw [ht, motionExit_frame] at hhigh
    exact .inl hhigh
  | beamResetFire _ ht =>
    rw [ht] at hhigh
    cases hhigh
  | homingIter l _ ht =>
    rw [ht, homingIteration_laserPin] at hhigh
    exact .inl hhigh
  | hostOp _ _ _ _ _ ht => exact .inl (ht.laserPin_of_high hhigh)
  | droppedTick _ _ _ ht => subst ht; exact .inl hhigh
  | pulseResetFire _ ht => subst ht; exact .inl hhigh
  | plannerPush _ _ ht => subst ht; exact .inl hhigh
  | rasterPush _ ht => subst ht; exact .inl hhigh
  | senseChange _ ht => subst ht; exact .inl hhigh
  | clockAdvance _ ht => subst ht; exact .inl hhigh

/-- A step that leaves the pin high found it high, or holds an invocation that raised it. -/
theorem step_laserPin_or_raises {s t : State} (h : step s = .next t) (hhigh : t.laserPin = true) :
    s.laserPin = true ∨ (stepTimerEnabled s = true ∧ s.busy = false ∧ RaisesLaserPin s t) := by
  obtain ⟨-, bytes, rest, -, -, hc, rfl⟩ | ⟨-, e, rest, -, -, he⟩ | ⟨-, e, -, he⟩ | ⟨-, -, rfl⟩ := step_next h
  · exact .inl ((HostEffect.init hc).laserPin_of_high hhigh)
  · obtain hs | ⟨hen, hb, hraised⟩ := he.laserPin_or_raises hhigh
    · exact .inl hs
    · exact .inr ⟨hen, hb, { hraised with }⟩
  · exact he.laserPin_or_raises hhigh
  · exact .inl hhigh

/-- Settles O60: a step that finds the pin low and leaves it high holds an invocation that raised it. -/
theorem laserPinRisesOnlyInALaserPulse : Obligations.LaserPinRisesOnlyInALaserPulse := by
  intro s t h hlow hhigh
  obtain hs | ⟨hen, hb, hraised⟩ := step_laserPin_or_raises h hhigh
  · rw [hlow] at hs
    cases hs
  · obtain ⟨hprocessing, hhoming⟩ := (stepTimerEnabled_iff s).1 hen
    exact ⟨hprocessing, hhoming, hb, hraised.stop, hraised.limits, hraised.interlock, hraised.duty, hraised.due,
      hraised.mem_newTrace⟩

end Sys2Proof.Machine
end

section
/-! The events that come from outside the core: host operations (R91, R109) and what the environment does to the queue,
the stream and the inputs (R47, R76, R77). Each is the next event of the agenda and is performed as such. -/

namespace Sys2Proof.Machine

/-! ### Taking the event the agenda orders next -/

/-- Of the events only a host operation can have to wait, and a core that is ready takes it (R300). -/
theorem mustWait_hostOp_of_ready {s : State} (hb : s.busy = false) (hh : s.homing = none) (bytes : List Byte) :
    mustWait (.hostOp bytes) s = false := by
  have hready : hostReady s = true := (hostReady_iff s).2 ⟨hb, hh⟩
  simp [mustWait, hready]

/-- An initialised core performs the event ordered next, unless it has to wait. -/
theorem step_of_agenda {s : State} {e : Event} {rest : List Event} (hi : s.initialised = true)
    (ha : s.agenda = e :: rest) (hw : mustWait e s = false) : step s = perform e { s with agenda := rest } := by
  unfold step nextEvent
  rw [if_pos hi, ha]
  exact if_neg (Bool.eq_false_iff.1 hw)

/-! ### What each event from outside does -/

/-- The bytes on the host port are run as the instruction they decode to (R109). -/
theorem perform_hostOp {bytes : List Byte} {i : Instr} (hd : decode .hostPort bytes = .ok i) (s : State) :
    perform (.hostOp bytes) s = exec i s := by
  simp only [perform, hostOp, hd]

/-- The planner appends a whole record to the queue (R76, R83). -/
theorem perform_plannerPush {record : List Byte} (hl : record.length = blockLength) (s : State) :
    perform (.plannerPush record) s = .next { s with queue := s.queue ++ [record] } :=
  if_pos hl

/-- Settles O8: a ready core does not make the host operation wait, and performing it is `exec` of what its bytes
decode to. -/
theorem stepRunsTheHostOperation : Obligations.StepRunsTheHostOperation := by
  intro s bytes rest i hi ha hb hh hd
  calc step s
    _ = perform (.hostOp bytes) { s with agenda := rest } :=
      step_of_agenda hi ha (mustWait_hostOp_of_ready hb hh bytes)
    _ = exec i { s with agenda := rest } := perform_hostOp hd _

/-- Settles O18, one kind of event at a time: none of the three ever waits, and each is one record update. -/
theorem environmentEventsChangeOnlyTheirOwn : Obligations.EnvironmentEventsChangeOnlyTheirOwn := by
  refine ⟨?plannerPush, ?rasterPush, ?senseChange⟩
  case plannerPush =>
    intro s record rest hi ha hl
    exact (step_of_agenda hi ha rfl).trans (perform_plannerPush hl _)
  case rasterPush =>
    intro s byte rest hi ha
    exact step_of_agenda hi ha rfl
  case senseChange =>
    intro s sense rest hi ha
    exact step_of_agenda hi ha rfl

end Sys2Proof.Machine
end

section
/-! The encoding (30_encoding.md: R101, R102, R104, R106, R108 to R110): what the decoders of the two spaces answer, as
one equation or one inversion lemma for each, and from these that decoding and encoding undo each other and that each
reserved value has a rejection of its own. -/

namespace Sys2Proof

open Machine

/-! ### Bytes at their offsets -/

/-- A list of known length is its bytes, one offset after the other. -/
theorem map_byteAt_range {bs : List Byte} {n : Nat} (hl : bs.length = n) : (List.range n).map (byteAt bs) = bs := by
  subst hl
  refine List.ext_getElem (by simp) fun o _ ho => ?_
  simp [byteAt, ho]

theorem byte_eq_of_toNat {c : Byte} {n : Nat} (h : c.toNat = n) : c = BitVec.ofNat 8 n := by
  rw [← h, BitVec.ofNat_toNat, BitVec.setWidth_eq]

/-- An `f64` at the head of the bytes is read back whole (R79). -/
theorem f64At_f64Bytes_append (v : F64) (rest : List Byte) : f64At (f64Bytes v ++ rest) 0 = v :=
  (congrArg₂ (· ++ ·) (u32_of_bytes _) (u32_of_bytes _)).trans (f64_of_halves v)

/-! ### The record of a motion block (R101) -/

/-- The type code of a motion block (R102). -/
def MotionKind.typeCode : MotionKind → Byte
  | .line => 0x00
  | .raster => 0x01

theorem MotionKind.block_injective (k : MotionKind) : Function.Injective k.block := by
  cases k
  · exact fun _ _ => Block.line.inj
  · exact fun _ _ => Block.rasterLine.inj

theorem encode_motionBlock (k : MotionKind) (b : MotionBlock) :
    encode (k.block b).toInstr = encodeMotion k.typeCode b := by
  cases k <;> rfl

/-- Byte 1 with its reserved bits clear is a pin vector without step bits, and nothing else (R101, R110). -/
theorem reservedDirectionBits_clear_iff (w : Byte) :
    w &&& 0b11000111#8 = 0 ↔ (w.extractLsb' 0 6).setWidth 8 = w ∧ w.extractLsb' 0 6 &&& 0b000111#6 = 0 := by
  revert w
  decide

theorem extractLsb'_setWidth_pins (d : Pins) : (d.setWidth 8).extractLsb' 0 6 = d := by
  rw [← BitVec.setWidth_eq_extractLsb' (by decide), BitVec.setWidth_setWidth_of_le _ (by decide), BitVec.setWidth_eq]

/-- Every field is read back at the offset it is written to. -/
theorem motionFields_encodeMotion (code : Byte) (b : MotionBlock) : motionFields (encodeMotion code b) = b := by
  simp [motionFields, encodeMotion, u32Bytes, u32At, u32_of_bytes, extractLsb'_setWidth_pins]

/-- What the decoder reads from a record without reserved bits holds every bit of it. -/
theorem encodeMotion_motionFields {r : List Byte} (hl : r.length = blockLength)
    (hdir : byteAt r 1 &&& 0b11000111#8 = 0) (hbyte : byteAt r 3 = 0) :
    encodeMotion (byteAt r 0) (motionFields r) = r := by
  have hpins : ((byteAt r 1).extractLsb' 0 6).setWidth 8 = byteAt r 1 :=
    ((reservedDirectionBits_clear_iff _).1 hdir).1
  calc encodeMotion (byteAt r 0) (motionFields r)
    _ = (List.range blockLength).map (byteAt r) := by
      simp only [encodeMotion, motionFields, u32Bytes_u32At, hpins, ← hbyte]
      rfl
    _ = r := map_byteAt_range hl

/-- A motion block is read exactly from a record whose reserved bits are clear (R110). -/
theorem decodeMotion_eq_ok {k : MotionKind} {r : List Byte} {blk : Block} :
    decodeMotion k r = .ok blk ↔
      byteAt r 1 &&& 0b11000111#8 = 0 ∧ byteAt r 3 = 0 ∧ k.block (motionFields r) = blk := by
  unfold decodeMotion
  split
  · rename_i hdir
    exact iff_of_false nofun fun ⟨h, _⟩ => hdir h
  · rename_i hdir
    split
    · rename_i hbyte
      exact iff_of_false nofun fun ⟨_, h, _⟩ => hbyte h
    · rename_i hbyte
      rw [Except.ok.injEq]
      exact ⟨fun hk => ⟨not_not.1 hdir, not_not.1 hbyte, hk⟩, fun ⟨_, _, hk⟩ => hk⟩

/-! ### The records of the block queue (R102) -/

/-- The type codes 0 and 1 select a motion block. -/
theorem decodeBlock_of_typeCode {k : MotionKind} {r : List Byte} (hl : r.length = blockLength)
    (hc : byteAt r 0 = k.typeCode) : decodeBlock r = decodeMotion k r := by
  unfold decodeBlock
  rw [if_neg (not_not.2 hl), hc]
  cases k <;> rfl

/-- A record that decodes to a motion block has the type code of its kind and is read as one. -/
theorem decodeBlock_motion {k : MotionKind} {r : List Byte} {b : MotionBlock}
    (h : decodeBlock r = .ok (k.block b)) :
    r.length = blockLength ∧ byteAt r 0 = k.typeCode ∧ decodeMotion k r = .ok (k.block b) := by
  unfold decodeBlock at h
  split at h
  · cases h
  · rename_i hl
    refine ⟨not_not.1 hl, ?_⟩
    split at h
    case h_1 hc =>
      obtain ⟨-, -, hk⟩ := decodeMotion_eq_ok.1 h
      cases k
      · exact ⟨byte_eq_of_toNat hc, h⟩
      · cases hk
    case h_2 hc =>
      obtain ⟨-, -, hk⟩ := decodeMotion_eq_ok.1 h
      cases k
      · cases hk
      · exact ⟨byte_eq_of_toNat hc, h⟩
    all_goals cases k <;> cases h

/-- A motion block without step bits is read back from its record. -/
theorem decodeBlock_encodeMotion (k : MotionKind) {b : MotionBlock} (hb : b.StepBitsClear) :
    decodeBlock (encodeMotion k.typeCode b) = .ok (k.block b) := by
  have hpins := extractLsb'_setWidth_pins b.directionBits
  have hdir : b.directionBits.setWidth 8 &&& 0b11000111#8 = 0 := by
    rw [reservedDirectionBits_clear_iff, hpins]
    exact ⟨rfl, hb⟩
  calc decodeBlock (encodeMotion k.typeCode b)
    _ = decodeMotion k (encodeMotion k.typeCode b) := decodeBlock_of_typeCode rfl rfl
    _ = .ok (k.block b) := decodeMotion_eq_ok.2 ⟨hdir, rfl, congrArg k.block (motionFields_encodeMotion _ b)⟩

theorem decode_encode_motionBlock (k : MotionKind) {b : MotionBlock} (hb : b.StepBitsClear) :
    decode .blockQueue (encode (k.block b).toInstr) = .ok (k.block b).toInstr := by
  rw [encode_motionBlock, decode, decodeBlock_encodeMotion k hb]
  rfl

/-! ### The host operations (R108) -/

/-- The host port decodes bytes exactly if they are as many as their code asks for and their operands are good. -/
theorem decode_hostPort_eq_ok {bs : List Byte} {i : Instr} :
    decode .hostPort bs = .ok i ↔ hostLength (byteAt bs 0) = some bs.length ∧ decodeHostCode bs = .ok i := by
  simp only [decode, decodeHostOp]
  cases hostLength (byteAt bs 0) with
  | none => simp
  | some n =>
    by_cases hl : bs.length = n
    · simp [hl]
    · simp [hl, Ne.symm hl]

/-- The codes 0x0E to 0xFF have no length (R110). -/
theorem hostLength_of_reserved {c : Byte} (h : 0x0E ≤ c.toNat) : hostLength c = none := by
  obtain ⟨n, hn⟩ := Nat.exists_eq_add_of_le' h
  rw [hostLength, hn]
  rfl

/-- The codes 7 to 255 are no stop status (R106, R110). -/
theorem ofCode_of_reserved {v : Byte} (h : 7 ≤ v.toNat) : StopStatus.ofCode v = none := by
  obtain ⟨n, hn⟩ := Nat.exists_eq_add_of_le' h
  rw [StopStatus.ofCode, hn]
  rfl

/-- `set_position` with any padding and any operands: the padding is tested first (R110). -/
theorem decode_setPosition {pad : List Byte} (hpad : pad.length = 7) (x y z : F64) :
    decode .hostPort (0x0B :: pad ++ f64Bytes x ++ f64Bytes y ++ f64Bytes z) =
      if pad ≠ List.replicate 7 0 then .error .nonzeroPadding
      else if f64Finite x && f64Finite y && f64Finite z then .ok (.setPosition x y z)
      else .error .notFinite := by
  obtain ⟨p1, p2, p3, p4, p5, p6, p7, rfl⟩ : ∃ p1 p2 p3 p4 p5 p6 p7, pad = [p1, p2, p3, p4, p5, p6, p7] :=
    ⟨_, _, _, _, _, _, _, (map_byteAt_range hpad).symm⟩
  generalize hbs : 0x0B :: [p1, p2, p3, p4, p5, p6, p7] ++ f64Bytes x ++ f64Bytes y ++ f64Bytes z = bs
  have hx : f64At bs 8 = x := hbs ▸ f64At_f64Bytes_append x (f64Bytes y ++ f64Bytes z)
  have hy : f64At bs 16 = y := hbs ▸ f64At_f64Bytes_append y (f64Bytes z)
  have hz : f64At bs 24 = z := hbs ▸ f64At_f64Bytes_append z []
  have hpad : (bs.drop 1).take 7 = [p1, p2, p3, p4, p5, p6, p7] := hbs ▸ rfl
  calc decode .hostPort bs
    _ = decodeSetPosition bs := hbs ▸ rfl
    _ = _ := by
      rw [decodeSetPosition, hx, hy, hz, hpad]
      rfl

/-- `set_position` is written back from what its decoder reads. -/
theorem encode_of_decodeSetPosition {bs : List Byte} {i : Instr} (hc : (byteAt bs 0).toNat = 0x0B)
    (hl : bs.length = 32) (h : decodeSetPosition bs = .ok i) : encode i = bs ∧ i.encodable = true := by
  unfold decodeSetPosition at h
  split at h
  · cases h
  · rename_i hpad
    split at h
    · rename_i hfinite
      cases h
      refine ⟨?_, hfinite⟩
      have hpadding : [0, 0, 0, 0, 0, 0, 0] = (bs.drop 1).take 7 := (not_not.1 hpad).symm
      have hbs := map_byteAt_range hl
      calc encode (.setPosition (f64At bs 8) (f64At bs 16) (f64At bs 24))
        _ = byteAt bs 0 :: (bs.drop 1).take 7 ++ f64Bytes (f64At bs 8) ++ f64Bytes (f64At bs 16) ++
              f64Bytes (f64At bs 24) := by rw [← hpadding, byte_eq_of_toNat hc]; rfl
        _ = byteAt bs 0 :: (((List.range 32).map (byteAt bs)).drop 1).take 7 ++ f64Bytes (f64At bs 8) ++
              f64Bytes (f64At bs 16) ++ f64Bytes (f64At bs 24) := by rw [hbs]
        _ = (List.range 32).map (byteAt bs) := by
          simp only [f64Bytes_f64At, u32Bytes_u32At]
          rfl
        _ = bs := hbs
    · cases h

/-- The one-byte operations: the code is the whole encoding (R108). -/
theorem code_of_oneByte {bs : List Byte} {n : Nat} (hc : (byteAt bs 0).toNat = n) (hl : bs.length = 1) :
    [BitVec.ofNat 8 n] = bs := by
  rw [← byte_eq_of_toNat hc]
  exact map_byteAt_range hl

/-- What the host port decodes is written back, and it holds no reserved value. -/
theorem encode_of_decodeHostCode {bs : List Byte} {i : Instr} (hl : hostLength (byteAt bs 0) = some bs.length)
    (h : decodeHostCode bs = .ok i) : encode i = bs ∧ i.encodable = true := by
  have length_eq {n m : Nat} (hc : (byteAt bs 0).toNat = n) (hn : hostLength (BitVec.ofNat 8 n) = some m) :
      bs.length = m := by
    rw [byte_eq_of_toNat hc, hn] at hl
    exact (Option.some.inj hl).symm
  unfold decodeHostCode at h
  split at h
  -- 0x04, `request_stop`
  case h_5 hc =>
    unfold decodeRequestStop at h
    split at h
    · rename_i kind hkind
      cases h
      refine ⟨?_, rfl⟩
      calc encode (.requestStop kind)
        _ = [byteAt bs 0, byteAt bs 1] := by rw [byte_eq_of_toNat hc, ← code_of_ofCode hkind]; rfl
        _ = bs := map_byteAt_range (length_eq hc rfl)
    · cases h
  -- 0x0B, `set_position`
  case h_12 hc => exact encode_of_decodeSetPosition hc (length_eq hc rfl) h
  -- 0x0D, `control_laser_intensity`
  case h_14 hc =>
    cases h
    refine ⟨?_, rfl⟩
    calc encode (.controlLaserIntensity (byteAt bs 1))
      _ = [byteAt bs 0, byteAt bs 1] := by rw [byte_eq_of_toNat hc]; rfl
      _ = bs := map_byteAt_range (length_eq hc rfl)
  -- a reserved code
  case h_15 => cases h
  all_goals
    rename_i hc
    cases h
    exact ⟨code_of_oneByte hc (length_eq hc rfl), rfl⟩

/-! ### Reserved encodings (R110) -/

/-- A type code below 2 is that of a motion block (R102). -/
theorem exists_typeCode {c : Byte} (h : c.toNat ≤ 1) : ∃ k : MotionKind, c = k.typeCode := by
  obtain h0 | h1 := Nat.le_one_iff_eq_zero_or_eq_one.1 h
  · exact ⟨.line, byte_eq_of_toNat h0⟩
  · exact ⟨.raster, byte_eq_of_toNat h1⟩

theorem decodeBlock_of_reservedType {r : List Byte} (hl : r.length = blockLength) (h : 8 ≤ (byteAt r 0).toNat) :
    decodeBlock r = .error .reservedBlockType := by
  obtain ⟨n, hn⟩ := Nat.exists_eq_add_of_le' h
  rw [decodeBlock, if_neg (not_not.2 hl), hn]
  rfl

theorem decodeBlock_of_reservedDirectionBits {r : List Byte} (hl : r.length = blockLength)
    (hc : (byteAt r 0).toNat ≤ 1) (h : byteAt r 1 &&& 0b11000111#8 ≠ 0) :
    decodeBlock r = .error .reservedDirectionBits := by
  obtain ⟨k, hk⟩ := exists_typeCode hc
  rw [decodeBlock_of_typeCode hl hk, decodeMotion, if_pos h]

theorem decodeBlock_of_reservedByte {r : List Byte} (hl : r.length = blockLength)
    (hc : (byteAt r 0).toNat ≤ 1) (hdir : byteAt r 1 &&& 0b11000111#8 = 0) (h : byteAt r 3 ≠ 0) :
    decodeBlock r = .error .reservedByte := by
  obtain ⟨k, hk⟩ := exists_typeCode hc
  rw [decodeBlock_of_typeCode hl hk, decodeMotion, if_neg (not_not.2 hdir), if_pos h]

theorem decode_hostPort_of_reservedCode {bs : List Byte} (h : 0x0E ≤ (byteAt bs 0).toNat) :
    decode .hostPort bs = .error .reservedHostCode := by
  rw [decode, decodeHostOp, hostLength_of_reserved h]

theorem decode_hostPort_of_reservedStatus {v : Byte} (h : 7 ≤ v.toNat) :
    decode .hostPort [0x04, v] = .error .reservedStatus := by
  calc decode .hostPort [0x04, v]
    _ = decodeRequestStop [0x04, v] := rfl
    _ = .error .reservedStatus := by
      rw [decodeRequestStop, byteAt_cons_succ, byteAt_cons_zero, ofCode_of_reserved h]

end Sys2Proof

namespace Sys2Proof.Machine

/-- The bytes on the host port that decode to nothing are refused (R110). -/
theorem perform_hostOp_of_error {bytes : List Byte} {why : Reject} (hd : decode .hostPort bytes = .error why)
    (s : State) : perform (.hostOp bytes) s = .refused (.reservedEncoding why) := by
  simp only [perform, hostOp, hd]

/-- Without a stop and a limit the invocation goes on to its dispatch (R219, R220). -/
theorem stepEnter_of_dispatch {s : State} (hs : s.stopRequested = false) (hl : limitHit s = none) :
    stepEnter s = dispatchBlock (beamStepPulse (interlockCut s)) := by
  unfold stepEnter
  rw [if_neg (Bool.eq_false_iff.1 hs), hl]

/-- A record at the head of the queue that decodes to no block is refused when it is fetched (R110, R222). -/
theorem dispatchBlock_of_error {s : State} {record : List Byte} {more : List (List Byte)} {why : Reject}
    (hc : s.currentBlock = none) (hq : s.queue = record :: more) (hd : decodeBlock record = .error why) :
    dispatchBlock s = .refused (.reservedEncoding why) := by
  simp only [dispatchBlock, hc, blockPeek, hq, List.head?_cons, hd]

/-- An invocation that meets a record it cannot decode is refused: steps 4 and 5 keep the queue (R220 to R222). -/
theorem step_of_fetch_error {s : State} {record : List Byte} {more : List (List Byte)} {rest : List Event}
    {why : Reject} (hf : FireNext s rest) (hb : s.busy = false) (hs : s.stopRequested = false)
    (hl : limitHit s = none) (hc : s.currentBlock = none) (hq : s.queue = record :: more)
    (hd : decodeBlock record = .error why) : step s = .refused (.reservedEncoding why) := by
  have hcurrent : (beamStepPulse (interlockCut (fired s rest))).currentBlock = none := by
    rw [preamble_frame]
    exact hc
  have hqueue : (beamStepPulse (interlockCut (fired s rest))).queue = record :: more := by
    rw [preamble_frame]
    exact hq
  calc step s
    _ = stepEnter (fired s rest) := by rw [step_of_fireNext hf, if_neg (Bool.eq_false_iff.1 hb)]
    _ = dispatchBlock (beamStepPulse (interlockCut (fired s rest))) := stepEnter_of_dispatch hs hl
    _ = .refused (.reservedEncoding why) := dispatchBlock_of_error hcurrent hqueue hd

/-! ### The statements -/

/-- Settles O1, one instruction at a time: the motion blocks and `set_position` by their decoders' own equations, a stop
status by its code, and the instructions whose bytes are given by the code alone by evaluation. -/
theorem decodeOfEncodeIsIdentity : Obligations.DecodeOfEncodeIsIdentity := by
  intro i hi
  cases i with
  | line b => exact decode_encode_motionBlock .line (of_decide_eq_true hi)
  | rasterLine b => exact decode_encode_motionBlock .raster (of_decide_eq_true hi)
  | requestStop kind => cases kind <;> rfl
  | setPosition x y z =>
    refine (decode_setPosition (pad := List.replicate 7 0) rfl x y z).trans ?_
    rw [if_neg (not_not.2 rfl)]
    exact if_pos hi
  | _ => rfl

/-- Settles O2: a decoded host operation is written back code by code. -/
theorem encodeOfDecodedHostOperation : Obligations.EncodeOfDecodedHostOperation := by
  intro bytes i h
  obtain ⟨hl, hcode⟩ := decode_hostPort_eq_ok.1 h
  obtain ⟨hbytes, hencodable⟩ := encode_of_decodeHostCode hl hcode
  exact ⟨hbytes, space_of_decode_hostPort h, hencodable⟩

/-- Settles O3: the record has clear reserved bits, and the fields hold all the others. -/
theorem encodeOfDecodedMotionBlock : Obligations.EncodeOfDecodedMotionBlock := by
  intro record k b h
  obtain ⟨hl, hc, hm⟩ := decodeBlock_motion h
  obtain ⟨hdir, hbyte, hk⟩ := decodeMotion_eq_ok.1 hm
  obtain rfl : motionFields record = b := k.block_injective hk
  refine ⟨?_, ((reservedDirectionBits_clear_iff _).1 hdir).2⟩
  rw [encode_motionBlock, ← hc]
  exact encodeMotion_motionFields hl hdir hbyte

/-- Settles O4: one rejection for each kind of reserved encoding, then the two places where a step meets one. -/
theorem reservedEncodingsAreRefused : Obligations.ReservedEncodingsAreRefused := by
  refine ⟨fun _ => decodeBlock_of_reservedType, fun _ => decodeBlock_of_reservedDirectionBits,
    fun _ => decodeBlock_of_reservedByte, fun _ => decode_hostPort_of_reservedCode,
    fun _ => decode_hostPort_of_reservedStatus, ?padding, ?notFinite, ?hostPort, ?fetch⟩
  case padding =>
    intro pad x y z hl hpad
    rw [decode_setPosition hl, if_pos hpad]
  case notFinite =>
    intro x y z hfinite
    have hnot : ¬(f64Finite x && f64Finite y && f64Finite z) = true := by
      obtain h | h | h := hfinite <;> simp [h]
    rw [decode_setPosition List.length_replicate, if_neg (not_not.2 rfl), if_neg hnot]
  case hostPort =>
    intro s bytes rest why hi ha hb hh hd
    exact (step_of_agenda hi ha (mustWait_hostOp_of_ready hb hh bytes)).trans (perform_hostOp_of_error hd _)
  case fetch =>
    intro s record more rest why hf hb hs hl hc hq hd
    exact step_of_fetch_error hf hb hs hl hc hq hd

/-- Settles O5: three of the words are what the encoder writes (O1); the ignored bytes of the assist record are read
by no case of its decoder (R104). -/
theorem knownWordsDecode : Obligations.KnownWordsDecode :=
  ⟨decodeOfEncodeIsIdentity (.line ⟨0b010000#6, 200, 20, 10, 0, 20, 6000, 9000, 6000, 1000, 5, 15, 0⟩) rfl, rfl,
    decodeOfEncodeIsIdentity (.requestStop .limitHitZ1) rfl,
    decodeOfEncodeIsIdentity (.controlLaserIntensity 200) rfl⟩

end Sys2Proof.Machine
end

section
/-! The timer controller (R131 to R140, D14): the prescaler selection over any list of tiers, the period it achieves, and
the step ceiling, which no event that answers a next state programs to 0. -/

namespace Sys2Proof.Machine

/-! ### Prescaler selection -/

/-- A ceiling overflows 16 bits exactly from 65536 prescaler counts on. -/
theorem overflows_iff (p : Prescaler) (c : Nat) : 0xFFFF < c >>> p.shift ↔ 65536 * p.value ≤ c := by
  rw [Nat.shiftRight_eq_div_pow, prescaler_value_eq_shift]
  exact Nat.le_div_iff_mul_le (Nat.two_pow_pos _)

/-- Of tiers in rising order, of which one fits, the selection takes the smallest that fits (R131). -/
theorem selectFrom_smallest {c : Nat} {l : List Prescaler} (hl : l.Pairwise (·.value ≤ ·.value)) {q : Prescaler}
    (hq : q ∈ l) (hfits : c >>> q.shift ≤ 0xFFFF) :
    c >>> (selectFrom l c).1.shift ≤ 0xFFFF ∧
      (selectFrom l c).2 = BitVec.ofNat 16 (c >>> (selectFrom l c).1.shift) ∧
      ∀ p ∈ l, p.value < (selectFrom l c).1.value → 0xFFFF < c >>> p.shift := by
  induction l with
  | nil => cases hq
  | cons a rest ih =>
    obtain ⟨hfirst, hrest⟩ := List.pairwise_cons.1 hl
    by_cases ha : c >>> a.shift ≤ 0xFFFF
    · have hsel : selectFrom (a :: rest) c = (a, BitVec.ofNat 16 (c >>> a.shift)) := if_pos ha
      rw [hsel]
      refine ⟨ha, rfl, fun p hp hlt => ?_⟩
      obtain rfl | hp := List.mem_cons.1 hp
      · exact absurd hlt (Nat.lt_irrefl _)
      · exact absurd hlt (Nat.not_lt.2 (hfirst p hp))
    · have hsel : selectFrom (a :: rest) c = selectFrom rest c := if_neg ha
      have hq' : q ∈ rest := by
        obtain rfl | hq' := List.mem_cons.1 hq
        · exact absurd hfits ha
        · exact hq'
      obtain ⟨hfit, hceiling, hsmaller⟩ := ih hrest hq'
      rw [hsel]
      refine ⟨hfit, hceiling, fun p hp hlt => ?_⟩
      obtain rfl | hp := List.mem_cons.1 hp
      · exact Nat.not_le.1 ha
      · exact hsmaller p hp hlt

/-- The tiers of R131 are tried in rising order. -/
theorem prescalerTiers_rising : prescalerTiers.Pairwise (·.value ≤ ·.value) := by decide

/-- Every prescaler is a tier (R131). -/
theorem mem_prescalerTiers (p : Prescaler) : p ∈ prescalerTiers := by cases p <;> decide

/-- The slowest prescaler divides by 1024 (R10). -/
theorem prescaler_value_le (p : Prescaler) : p.value ≤ 1024 := by cases p <;> decide

/-- Up to 67108863 the slowest tier fits, so the selection is the smallest that does (R131, R134). -/
theorem selectPrescaler_smallest {c : Nat} (hc : c ≤ 67108863) :
    (selectPrescaler c).2.toNat = c >>> (selectPrescaler c).1.shift ∧ c >>> (selectPrescaler c).1.shift ≤ 0xFFFF ∧
      ∀ p : Prescaler, p.value < (selectPrescaler c).1.value → 0xFFFF < c >>> p.shift := by
  have hslowest : c >>> Prescaler.div1024.shift ≤ 0xFFFF := by
    rw [← Nat.not_lt, overflows_iff]
    simp only [Prescaler.value]
    omega
  obtain ⟨hfit, hceiling, hsmaller⟩ :=
    selectFrom_smallest prescalerTiers_rising (mem_prescalerTiers .div1024) hslowest
  refine ⟨?_, hfit, fun p => hsmaller p (mem_prescalerTiers p)⟩
  have hnat := congrArg BitVec.toNat hceiling
  rwa [BitVec.toNat_ofNat, Nat.mod_eq_of_lt (Nat.lt_succ_of_le hfit)] at hnat

/-- Above 67108863 the timer saturates (R139). -/
theorem selectPrescaler_saturated {c : Nat} (hc : 67108863 < c) : selectPrescaler c = (.div1024, 0xFFFF#16) := by
  obtain ⟨_, _⟩ | ⟨_, _, _⟩ | ⟨_, _, _⟩ | ⟨_, _, _⟩ | ⟨_, _, _⟩ | ⟨_, hsel⟩ := selectPrescaler_tiers c
  case inr.inr.inr.inr.inr => exact hsel
  all_goals omega

/-- Settles O21: the smallest tier that fits while the slowest does, and saturation above, where even the slowest
overflows. -/
theorem selectPrescalerIsTheSmallestFitting : Obligations.SelectPrescalerIsTheSmallestFitting := by
  refine ⟨fun c hc => selectPrescaler_smallest hc, fun c hc => ⟨selectPrescaler_saturated hc, fun p => ?_⟩⟩
  have hp := prescaler_value_le p
  rw [overflows_iff]
  omega

/-! ### The achieved period -/

/-- Within the range the achieved period is the whole prescaler counts of the requested one (R133, R140). -/
theorem achievedPeriod_eq_sub_mod {c : Nat} (hc : c ≤ 67108863) :
    achievedPeriod c = c - c % 2 ^ (selectPrescaler c).1.shift := by
  obtain ⟨hceiling, -, -⟩ := selectPrescaler_smallest hc
  calc achievedPeriod c
    _ = (selectPrescaler c).1.value * (selectPrescaler c).2.toNat := rfl
    _ = 2 ^ (selectPrescaler c).1.shift * (c / 2 ^ (selectPrescaler c).1.shift) := by
      rw [hceiling, prescaler_value_eq_shift, Nat.shiftRight_eq_div_pow]
    _ = c - c % 2 ^ (selectPrescaler c).1.shift := Nat.mul_div_self_eq_mod_sub_self

/-- Settles O22: what is cut off is a remainder, so it is less than one prescaler count. -/
theorem achievedPeriodIsTheRequestedOneTruncated : Obligations.AchievedPeriodIsTheRequestedOneTruncated := by
  refine ⟨fun c hc => ?_, fun c hc => ?_⟩
  · have hcut : c % 2 ^ (selectPrescaler c).1.shift < 2 ^ (selectPrescaler c).1.shift :=
      Nat.mod_lt c (Nat.two_pow_pos _)
    rw [achievedPeriod_eq_sub_mod hc]
    exact ⟨rfl, Nat.sub_le _ _, by omega⟩
  · rw [achievedPeriod, selectPrescaler_saturated hc]
    rfl

/-! ### The step ceiling through a step -/

/-- From `s` to `t` the step ceiling is kept, or the step timer is left with a period (R136). -/
def KeepsCeilingOrHasPeriod (s t : State) : Prop := t.stepCeiling = s.stepCeiling ∨ t.stepCeiling ≠ 0

/-- Only what is programmed anew is asked for a period: ceiling 0 afterwards was there before. -/
theorem KeepsCeilingOrHasPeriod.eq_zero {s t : State} (h : KeepsCeilingOrHasPeriod s t) (ht : t.stepCeiling = 0) :
    s.stepCeiling = 0 := by
  obtain hkept | hperiod := h
  · exact hkept.symm.trans ht
  · exact absurd ht hperiod

/-- A block that answers a next state: a motion block goes on only with a period (R136), an assist block programs no
timer (R230). -/
theorem exec_block_keepsCeilingOrHasPeriod {blk : Block} {s t : State} (h : exec blk.toInstr s = .next t) :
    KeepsCeilingOrHasPeriod s t := by
  obtain ⟨-, -, -, -, hperiod, -⟩ | ⟨v, rfl⟩ | ⟨v, rfl⟩ | ⟨v, rfl⟩ := exec_block_next h
  · exact .inr hperiod
  · exact .inl rfl
  · exact .inl rfl
  · exact .inl rfl

/-- Steps 6 to 8: whichever block is run, or the underrun (R222, R223, R225). -/
theorem dispatchBlock_keepsCeilingOrHasPeriod {s t : State} (h : dispatchBlock s = .next t) :
    KeepsCeilingOrHasPeriod s t := by
  obtain ⟨blk, -, he⟩ | ⟨-, -, rfl⟩ | ⟨record, rest, blk, -, -, -, -, he⟩ := dispatchBlock_next h
  · exact exec_block_keepsCeilingOrHasPeriod he
  · exact .inl rfl
  · exact exec_block_keepsCeilingOrHasPeriod he

/-- An invocation of the step timer, on each of its paths: only the dispatch can program the timer (R219, R220,
R229). -/
theorem stepEnter_keepsCeilingOrHasPeriod {s t : State} (h : stepEnter s = .next t) :
    KeepsCeilingOrHasPeriod s t := by
  obtain ⟨-, rfl⟩ | ⟨-, kind, -, rfl⟩ | ⟨-, -, hd⟩ := stepEnter_next h
  · exact .inl rfl
  · rw [limitReturn_frame, (interlockCut_frame s).1]
    exact .inl rfl
  · have hk := dispatchBlock_keepsCeilingOrHasPeriod hd
    rw [preamble_frame] at hk
    exact hk

/-- One iteration of the homing loop programs no timer (R259). -/
theorem homingIteration_stepCeiling (l : Homing) (s : State) : (homingIteration l s).stepCeiling = s.stepCeiling := by
  obtain ⟨-, e⟩ | ⟨-, -, e⟩ | ⟨-, -, e⟩ := homingIteration_cases l s
  · rw [e]
  · rw [e, startPass_eq]
  · rw [e]

/-- Of the host operations only `init()` programs the step timer, and it goes on only with a period (R340, R136). -/
theorem HostEffect.keepsCeilingOrHasPeriod {s t : State} {i : Instr} (h : HostEffect s i t) :
    KeepsCeilingOrHasPeriod s t := by
  cases h with
  | init hperiod => exact .inr hperiod
  | requestStop kind =>
    rw [(requestStop_frame kind s).1]
    exact .inl rfl
  | _ => exact .inl rfl

/-- Every event, of the core, the host or the environment. -/
theorem EventEffect.keepsCeilingOrHasPeriod {s t : State} {e : Event} (h : EventEffect s t e) :
    KeepsCeilingOrHasPeriod s t := by
  cases h with
  | invocation _ _ _ ht =>
    have hk : KeepsCeilingOrHasPeriod (stampFire s) t := stepEnter_keepsCeilingOrHasPeriod ht
    exact hk
  | stepExit _ _ _ _ _ _ hperiod _ => exact .inr hperiod
  | homingIter l _ ht => exact .inl (ht ▸ homingIteration_stepCeiling l _)
  | hostOp _ _ _ _ _ ht => exact ht.keepsCeilingOrHasPeriod
  | droppedTick _ _ _ ht => exact .inl (ht ▸ rfl)
  | pulseResetFire _ ht => exact .inl (ht ▸ rfl)
  | beamResetFire _ ht => exact .inl (ht ▸ rfl)
  | plannerPush _ _ ht => exact .inl (ht ▸ rfl)
  | rasterPush _ ht => exact .inl (ht ▸ rfl)
  | senseChange _ ht => exact .inl (ht ▸ rfl)
  | clockAdvance _ ht => exact .inl (ht ▸ rfl)

/-- Every step that answers a next state (R136, D14). -/
theorem step_keepsCeilingOrHasPeriod {s t : State} (h : step s = .next t) : KeepsCeilingOrHasPeriod s t := by
  obtain ⟨-, _, _, -, -, hperiod, -⟩ | ⟨-, _, _, -, -, he⟩ | ⟨-, _, -, he⟩ | ⟨-, -, rfl⟩ := step_next h
  · exact .inr hperiod
  · exact he.keepsCeilingOrHasPeriod
  · exact he.keepsCeilingOrHasPeriod
  · exact .inl rfl

/-- Settles O23: the update of `set_step_rate`, the one period that selects ceiling 0, and the step that keeps the
ceiling or leaves a period. -/
theorem setStepRateProgramsTheTimer : Obligations.SetStepRateProgramsTheTimer :=
  ⟨setStepRate_eq, selectPrescaler_ceiling_eq_zero, rfl, rfl,
    fun _ _ h => (step_keepsCeilingOrHasPeriod h).eq_zero⟩

end Sys2Proof.Machine
end

section
/-! The ranges inside a well-formed motion block (R165, R178, R23): the distributor keeps an accumulator in `(-N, 0]`,
the speed profile keeps the rate between the minimum and the nominal rate, and the completion test ends the block when
its count is reached. Everything else keeps the registers of the block, or ends the block. -/

namespace Sys2Proof.Machine

/-! ### What the ranges are asked of -/

/-- A motion block has one kind and one set of fields. -/
theorem MotionKind.block_inj {k k' : MotionKind} {b b' : MotionBlock} (h : k.block b = k'.block b') :
    k = k' ∧ b = b' := by
  cases k <;> cases k' <;> cases h <;> exact ⟨rfl, rfl⟩

/-- With a motion block current the ranges are asked of that block alone. -/
theorem MotionInRange.of_current {s : State} {k : MotionKind} {b : MotionBlock}
    (hc : s.currentBlock = some (k.block b)) (h : k.BlockWellFormed s.cfg b → BlockRanges b s) : MotionInRange s := by
  intro k' b' hc' hw
  obtain ⟨rfl, rfl⟩ := MotionKind.block_inj (Option.some.inj (hc.symm.trans hc'))
  exact h hw

/-- From `s` to `t` none of the registers the ranges are about changes. -/
structure KeepsMotionRegisters (s t : State) : Prop where
  cfg : t.cfg = s.cfg
  currentBlock : t.currentBlock = s.currentBlock
  counter : t.counter = s.counter
  adjustedRate : t.adjustedRate = s.adjustedRate
  stepEventsCompleted : t.stepEventsCompleted = s.stepEventsCompleted

theorem MotionInRange.of_keeps {s t : State} (h : MotionInRange s) (hk : KeepsMotionRegisters s t) :
    MotionInRange t := by
  obtain ⟨hcfg, hblock, hcounter, hrate, hcompleted⟩ := hk
  intro k b hc hw
  obtain ⟨hcounter', hrate', hcompleted'⟩ := h k b (hblock ▸ hc) (hcfg ▸ hw)
  exact ⟨hcounter ▸ hcounter', by rw [hcfg, hrate]; exact hrate', hcompleted ▸ hcompleted'⟩

/-! ### The accumulators (R171, R178) -/

/-- An accumulator in `(-N, 0]` stays there if its axis makes at most `N` steps in the `N` events: a sum above 0 is at
most `N`, and the pulse takes `N` off it. -/
theorem axisCounter_inRange {steps count : Nat} {counter : Int} (hs : steps ≤ count)
    (h : CounterInRange count counter) : CounterInRange count (axisCounter steps count counter) := by
  obtain ⟨hlow, hhigh⟩ := h
  by_cases hpulse : 0 < counter + steps
  · simp only [axisCounter, axisPulse, hpulse, decide_true, if_true]
    constructor <;> omega
  · simp only [axisCounter, axisPulse, hpulse, decide_false, Bool.false_eq_true, if_false]
    constructor <;> omega

/-- The midpoint start lies in the range of a block of at least one event (R224). -/
theorem midpoint_inRange {count : Nat} (h : 1 ≤ count) : CounterInRange count (-((count / 2 : Nat) : Int)) := by
  constructor <;> omega

/-- No axis makes more steps than the block has events (R112 (a)). -/
theorem steps_le_eventCount {b : MotionBlock} (h : b.CountIsMax) (a : Axis) : (steps b).get a ≤ eventCount b := by
  have hmax : eventCount b = max b.stepsX.toNat (max b.stepsY.toNat b.stepsZ.toNat) := h
  rw [hmax]
  cases a
  · exact Nat.le_max_left _ _
  · exact (Nat.le_max_left _ _).trans (Nat.le_max_right _ _)
  · exact (Nat.le_max_right _ _).trans (Nat.le_max_right _ _)

/-! ### The parts of an invocation -/

/-- The distributor writes the accumulators, of all the registers in question (R171). -/
theorem bresenhamStep_blockRanges {b : MotionBlock} {s : State} (hm : b.CountIsMax) (h : BlockRanges b s) :
    BlockRanges b (bresenhamStep b s) := by
  rw [bresenhamStep_eq]
  refine ⟨fun a => ?_, h.rate, h.completed⟩
  simp only [distribute, get_ofFn]
  exact axisCounter_inRange (steps_le_eventCount hm a) (h.counter a)

/-- The initialisation of a well-formed block puts its registers in range (R224). -/
theorem motionBlockInit_blockRanges (k : MotionKind) {b : MotionBlock} {s : State} (h : b.WellFormed s.cfg) :
    BlockRanges b (motionBlockInit k b s) := by
  obtain ⟨-, -, -, hpos, -, ⟨hinitial, -⟩, -, -⟩ := h
  rw [motionBlockInit_eq]
  refine ⟨fun a => ?_, hinitial, hpos⟩
  have hmid : CounterInRange (eventCount b) (-((eventCount b / 2 : Nat) : Int)) := midpoint_inRange hpos
  cases a <;> exact hmid

/-- The end of a `StepEnter` sets `busy`, of which the ranges say nothing. -/
theorem BlockRanges.withBusy {b : MotionBlock} {s : State} (h : BlockRanges b s) (busy : Bool) :
    BlockRanges b { s with busy := busy } := ⟨h.counter, h.rate, h.completed⟩

/-- `StepEnter` of a motion block already current (R226). -/
theorem motionEnter_current_motionInRange {s : State} {k : MotionKind} {b : MotionBlock} (h : MotionInRange s)
    (hc : s.currentBlock = some (k.block b)) : MotionInRange (motionEnter k b s) := by
  have he : motionEnter k b s = { bresenhamStep b s with busy := true } :=
    motionEnter_of_current (by rw [hc]; rfl)
  have hcfg : (motionEnter k b s).cfg = s.cfg := (motionEnter_keepsParametersAndInputs k b s).cfg
  refine .of_current (k := k) (b := b) ?_ fun hw => ?_
  · rw [he, bresenhamStep_eq]
    exact hc
  · rw [hcfg] at hw
    rw [he]
    exact (bresenhamStep_blockRanges hw.1.1 (h k b hc hw)).withBusy true

/-- `StepEnter` of a motion block it fetches (R222, R224, R226). -/
theorem motionEnter_fetch_motionInRange {s : State} (k : MotionKind) (b : MotionBlock) (hc : s.currentBlock = none) :
    MotionInRange (motionEnter k b s) := by
  have he := motionEnter_of_fetch (k := k) (b := b) hc
  have hcfg : (motionEnter k b s).cfg = s.cfg := (motionEnter_keepsParametersAndInputs k b s).cfg
  refine .of_current (k := k) (b := b) ?_ fun hw => ?_
  · rw [he, bresenhamStep_eq]
    rfl
  · rw [hcfg] at hw
    rw [he]
    have hinit : BlockRanges b (motionBlockInit k b (fetchBlock (k.block b) s)) := motionBlockInit_blockRanges k hw.1
    exact (bresenhamStep_blockRanges hw.1.1 hinit).withBusy true

/-- A `StepExit` that does not complete a well-formed block leaves its registers in range: the rate by R165, the count
because it is not the last. -/
theorem motionExit_blockRanges (k : MotionKind) {b : MotionBlock} {s : State} (hw : b.WellFormed s.cfg)
    (h : BlockRanges b s) (hn : s.stepEventsCompleted + 1 ≠ eventCount b) : BlockRanges b (motionExit k b s) := by
  obtain ⟨-, -, -, -, -, ⟨-, hfinal, hfinal'⟩, -, -⟩ := hw
  obtain ⟨hlow, hhigh⟩ := h.rate
  have hrate := runPhase_rate (s := countEvent s) (hfinal.trans hfinal') le_rfl hfinal hfinal' hlow hhigh
  have hcompleted := h.completed
  rw [motionExit_frame]
  exact ⟨h.counter, hrate, by simp only; omega⟩

/-- `StepExit` of the current block, or of none: it completes the block, which ends it (R228), or keeps it. -/
theorem motionExit_motionInRange {s : State} {k : MotionKind} {b : MotionBlock} (h : MotionInRange s)
    (hc : s.currentBlock = some (k.block b) ∨ s.currentBlock = none) : MotionInRange (motionExit k b s) := by
  have hcurrent : (motionExit k b s).currentBlock =
      if s.stepEventsCompleted + 1 = eventCount b then none else s.currentBlock := by
    rw [motionExit_frame]
  obtain hc | hc := hc
  · by_cases hn : s.stepEventsCompleted + 1 = eventCount b
    · rw [if_pos hn] at hcurrent
      exact .of_noBlock hcurrent
    · rw [if_neg hn] at hcurrent
      refine .of_current (hcurrent.trans hc) fun hw => ?_
      rw [(motionExit_keepsParametersAndInputs k b s).cfg] at hw
      exact motionExit_blockRanges k hw.1 (h k b hc hw) hn
  · rw [hc, ite_self] at hcurrent
    exact .of_noBlock hcurrent

/-- A block that answers a next state, of a core that executes it or fetches it (R225, R230). -/
theorem exec_block_motionInRange {blk : Block} {s t : State} (h : MotionInRange s)
    (hc : s.currentBlock = some blk ∨ s.currentBlock = none) (he : exec blk.toInstr s = .next t) :
    MotionInRange t := by
  obtain ⟨k, b, rfl, -, -, ⟨-, rfl⟩ | ⟨-, -, rfl⟩⟩ | ⟨v, rfl⟩ | ⟨v, rfl⟩ | ⟨v, rfl⟩ := exec_block_next he
  · obtain hc | hc := hc
    · exact motionEnter_current_motionInRange h hc
    · exact motionEnter_fetch_motionInRange k b hc
  · exact motionExit_motionInRange h hc
  · exact .of_noBlock rfl
  · exact .of_noBlock rfl
  · exact .of_noBlock rfl

/-- Steps 6 to 8: whichever block is run, or the underrun (R222, R223, R225). -/
theorem dispatchBlock_motionInRange {s t : State} (h : MotionInRange s) (hd : dispatchBlock s = .next t) :
    MotionInRange t := by
  obtain ⟨blk, hc, he⟩ | ⟨hc, -, rfl⟩ | ⟨record, rest, blk, hc, -, -, -, he⟩ := dispatchBlock_next hd
  · exact exec_block_motionInRange h (.inl hc) he
  · exact .of_noBlock hc
  · exact exec_block_motionInRange h (.inr hc) he

/-- The laser work of steps 4 and 5 keeps the registers of the block (R220, R191). -/
theorem preamble_keepsMotionRegisters (s : State) : KeepsMotionRegisters s (beamStepPulse (interlockCut s)) := by
  rw [preamble_frame]
  exact ⟨rfl, rfl, rfl, rfl, rfl⟩

/-- The limit return leaves the block where it stands (R220). -/
theorem limitReturn_keepsMotionRegisters (kind : StopStatus) (s : State) :
    KeepsMotionRegisters s (limitReturn kind (interlockCut s)) := by
  rw [limitReturn_frame, (interlockCut_frame s).1]
  exact ⟨rfl, rfl, rfl, rfl, rfl⟩

/-- An invocation of the step timer, on each of its paths (R219, R220, R229). -/
theorem stepEnter_motionInRange {s t : State} (h : MotionInRange s) (he : stepEnter s = .next t) :
    MotionInRange t := by
  obtain ⟨-, rfl⟩ | ⟨-, kind, -, rfl⟩ | ⟨-, -, hd⟩ := stepEnter_next he
  · exact .of_noBlock rfl
  · exact h.of_keeps (limitReturn_keepsMotionRegisters kind s)
  · exact dispatchBlock_motionInRange (h.of_keeps (preamble_keepsMotionRegisters s)) hd

/-! ### Homing and host operations -/

/-- One iteration of the homing loop (R259). -/
theorem homingIteration_keepsMotionRegisters (l : Homing) (s : State) :
    KeepsMotionRegisters s (homingIteration l s) := by
  obtain ⟨-, e⟩ | ⟨-, -, e⟩ | ⟨-, -, e⟩ := homingIteration_cases l s <;> rw [e] <;> exact ⟨rfl, rfl, rfl, rfl, rfl⟩

/-- `init()` leaves no block current (R340). -/
theorem initialise_motionInRange (s : State) : MotionInRange (initialise s) := by
  rw [initialise_eq, initOutputs_eq]
  exact .of_noBlock rfl

/-- Every host operation (R91): `init()` ends the block, the others keep its registers. -/
theorem HostEffect.motionInRange {s t : State} {i : Instr} (he : HostEffect s i t) (h : MotionInRange s) :
    MotionInRange t := by
  cases he with
  | init _ => exact initialise_motionInRange s
  | requestStop kind =>
    rw [(requestStop_frame kind s).1]
    exact h.of_keeps ⟨rfl, rfl, rfl, rfl, rfl⟩
  | _ => exact h.of_keeps ⟨rfl, rfl, rfl, rfl, rfl⟩

/-! ### Events and steps -/

/-- Every event (R300). -/
theorem EventEffect.motionInRange {s t : State} {e : Event} (he : EventEffect s t e) (h : MotionInRange s) :
    MotionInRange t := by
  cases he with
  | invocation _ _ _ ht =>
    have hstamp : MotionInRange (stampFire s) := h.of_keeps ⟨rfl, rfl, rfl, rfl, rfl⟩
    exact stepEnter_motionInRange hstamp ht
  | stepExit k b _ hc _ _ _ ht => exact ht ▸ motionExit_motionInRange h (.inl hc)
  | homingIter l _ ht =>
    have hadvance : MotionInRange (advanceTo .homingIter s) := h.of_keeps ⟨rfl, rfl, rfl, rfl, rfl⟩
    exact ht ▸ hadvance.of_keeps (homingIteration_keepsMotionRegisters l _)
  | hostOp _ _ _ _ _ ht => exact ht.motionInRange h
  | droppedTick _ _ _ ht => exact ht ▸ h.of_keeps ⟨rfl, rfl, rfl, rfl, rfl⟩
  | pulseResetFire _ ht => exact ht ▸ h.of_keeps ⟨rfl, rfl, rfl, rfl, rfl⟩
  | beamResetFire _ ht => exact ht ▸ h.of_keeps ⟨rfl, rfl, rfl, rfl, rfl⟩
  | plannerPush _ _ ht => exact ht ▸ h.of_keeps ⟨rfl, rfl, rfl, rfl, rfl⟩
  | rasterPush _ ht => exact ht ▸ h.of_keeps ⟨rfl, rfl, rfl, rfl, rfl⟩
  | senseChange _ ht => exact ht ▸ h.of_keeps ⟨rfl, rfl, rfl, rfl, rfl⟩
  | clockAdvance _ ht => exact ht ▸ h.of_keeps ⟨rfl, rfl, rfl, rfl, rfl⟩

/-- Settles O54, by the ways a step can go: the first `init()`, an event the agenda orders, one the core takes by
itself, or nothing. -/
theorem stepKeepsMotionInRange : Obligations.StepKeepsMotionInRange := by
  intro s t h hs
  obtain ⟨-, bytes, rest, -, -, -, rfl⟩ | ⟨-, e, rest, -, -, he⟩ | ⟨-, e, -, he⟩ | ⟨-, -, rfl⟩ := step_next hs
  · exact initialise_motionInRange _
  · have htake : MotionInRange { s with agenda := rest } := h.of_keeps ⟨rfl, rfl, rfl, rfl, rfl⟩
    exact he.motionInRange htake
  · exact he.motionInRange h
  · exact h

end Sys2Proof.Machine
end

section
/-! What a `StepExit` does to the rate (R151, R154 to R158, R200): the rate and the acceleration counter its phase
leaves, and the step timer and the intensity, which follow a change of the rate. What it does after the speed profile
programs no step timer. -/

namespace Sys2Proof.Machine

/-! ### The end of a step event -/

/-- An event that leaves the step timer at ceiling 0 is refused (R136). -/
theorem goOn_of_zero {t : State} (h : t.stepCeiling = 0) : goOn t = .refused .zeroTimerPeriod := if_pos h

/-- With `busy = 1` a motion block runs its `StepExit` (R226). -/
theorem exec_exit {k : MotionKind} {b : MotionBlock} {s : State} (hb : s.busy = true) (hf : CountFits s)
    (hd : Dimmable k b) : exec (k.block b).toInstr s = goOn (motionExit k b s) := by
  rw [exec_motion hd, motionStep_exit hb hf]

/-- A `StepExit` that leaves the step timer a period goes on (R136). -/
theorem exec_exit_of_period {k : MotionKind} {b : MotionBlock} {s : State} (hb : s.busy = true) (hf : CountFits s)
    (hd : Dimmable k b) (hp : ExitHasPeriod b s) : exec (k.block b).toInstr s = .next (motionExit k b s) := by
  rw [exec_exit hb hf hd]
  exact goOn_of_period ((motionExit_ceiling_ne_zero k b s).2 hp)

/-- A `StepExit` that would leave it none is refused (R136, log 8). -/
theorem exec_exit_of_no_period {k : MotionKind} {b : MotionBlock} {s : State} (hb : s.busy = true) (hf : CountFits s)
    (hd : Dimmable k b) (hp : ¬ExitHasPeriod b s) : exec (k.block b).toInstr s = .refused .zeroTimerPeriod := by
  rw [exec_exit hb hf hd]
  exact goOn_of_zero (Decidable.not_not.1 (mt (motionExit_ceiling_ne_zero k b s).1 hp))

/-! ### The phases (R151, R154 to R157) -/

/-- Phase A with a decision due: the rate rises (R154). -/
theorem phaseA_of_due (b : MotionBlock) {s : State} (h : cpat s.cfg < s.accCounter + s.cyclesPerStepEvent) :
    phaseA b s =
      { s with
        accCounter := s.accCounter + s.cyclesPerStepEvent - cpat s.cfg
        adjustedRate := min (s.adjustedRate + b.rateDelta.toNat) b.nominalRate.toNat } := by
  simp [phaseA, ticks, tick, tickCounter, tickDue, h]

/-- Phase A with none due: only the counter advances. -/
theorem phaseA_of_not_due (b : MotionBlock) {s : State} (h : s.accCounter + s.cyclesPerStepEvent ≤ cpat s.cfg) :
    phaseA b s = { s with accCounter := s.accCounter + s.cyclesPerStepEvent } := by
  simp [phaseA, ticks, tick, tickCounter, tickDue, Nat.not_lt.2 h]

/-- Phase D with a decision due: the rate falls (R157). -/
theorem phaseD_of_due (b : MotionBlock) {s : State} (h : cpat s.cfg < s.accCounter + s.cyclesPerStepEvent) :
    phaseD b s =
      { s with
        accCounter := s.accCounter + s.cyclesPerStepEvent - cpat s.cfg
        adjustedRate := max (s.adjustedRate - b.rateDelta.toNat) b.finalRate.toNat } := by
  simp [phaseD, ticks, tick, tickCounter, tickDue, satSub_eq, h]

/-- Phase D with none due: only the counter advances. -/
theorem phaseD_of_not_due (b : MotionBlock) {s : State} (h : s.accCounter + s.cyclesPerStepEvent ≤ cpat s.cfg) :
    phaseD b s = { s with accCounter := s.accCounter + s.cyclesPerStepEvent } := by
  simp [phaseD, ticks, tick, tickCounter, tickDue, Nat.not_lt.2 h]

section
variable {b : MotionBlock} {s : State}

/-- R158, first test: Phase A. -/
theorem runPhase_of_accelerate (h : s.stepEventsCompleted < b.accelerateUntil.toNat) :
    runPhase b s = phaseA b s := by
  simp [runPhase, blockPhase, phaseOf, h]

/-- R158, second test: Phase B. -/
theorem runPhase_of_cruise (h : b.accelerateUntil.toNat ≤ s.stepEventsCompleted)
    (h' : s.stepEventsCompleted < b.decelerateAfter.toNat) : runPhase b s = phaseB b s := by
  simp [runPhase, blockPhase, phaseOf, Nat.not_lt.2 h, h']

/-- R158, third test: Phase C. -/
theorem runPhase_of_boundary (h : b.accelerateUntil.toNat ≤ s.stepEventsCompleted)
    (h' : s.stepEventsCompleted = b.decelerateAfter.toNat) : runPhase b s = phaseC s := by
  have hordered : ¬b.decelerateAfter.toNat < b.accelerateUntil.toNat := by omega
  simp [runPhase, blockPhase, phaseOf, h', hordered]

/-- R158, no test met: Phase D. -/
theorem runPhase_of_decelerate (h : b.accelerateUntil.toNat ≤ s.stepEventsCompleted)
    (h' : b.decelerateAfter.toNat < s.stepEventsCompleted) : runPhase b s = phaseD b s := by
  simp [runPhase, blockPhase, phaseOf, Nat.not_lt.2 h, Nat.lt_asymm h', Nat.ne_of_gt h']

end

/-- A `StepExit` leaves the rate and the acceleration counter of its phase. -/
theorem motionExit_phase (k : MotionKind) (b : MotionBlock) (s : State) :
    (motionExit k b s).adjustedRate = (runPhase b (countEvent s)).adjustedRate ∧
      (motionExit k b s).accCounter = (runPhase b (countEvent s)).accCounter := by
  rw [motionExit_frame]
  exact ⟨rfl, rfl⟩

/-- Settles O27, phase by phase, the phase being the one the number of the event selects. -/
theorem speedProfileFollowsItsPhases : Obligations.SpeedProfileFollowsItsPhases := by
  intro k b s hb hf hd hp
  obtain ⟨hrate, hcounter⟩ := motionExit_phase k b s
  refine ⟨motionExit k b s, exec_exit_of_period hb hf hd hp, fun hA => ?_, fun hA hB => ?_, fun hA hC => ?_,
    fun hA hD => ?_⟩ <;> rw [hrate, hcounter]
  · rw [runPhase_of_accelerate hA]
    refine ⟨fun hdue => ?_, fun hnot => ?_⟩
    · rw [phaseA_of_due (s := countEvent s) b hdue]
      exact ⟨rfl, rfl⟩
    · rw [phaseA_of_not_due (s := countEvent s) b hnot]
      exact ⟨rfl, rfl⟩
  · rw [runPhase_of_cruise hA hB]
    exact ⟨rfl, rfl⟩
  · rw [runPhase_of_boundary hA hC]
    exact ⟨rfl, rfl⟩
  · rw [runPhase_of_decelerate hA hD]
    refine ⟨fun hdue => ?_, fun hnot => ?_⟩
    · rw [phaseD_of_due (s := countEvent s) b hdue]
      exact ⟨rfl, rfl⟩
    · rw [phaseD_of_not_due (s := countEvent s) b hnot]
      exact ⟨rfl, rfl⟩

/-! ### The trace after the speed profile (R49) -/

/-- From `s` to `t` the trace grows, and by no programming of the step timer. -/
def ProgramsNoStepTimer (s t : State) : Prop :=
  ∃ l, t.trace = s.trace ++ l ∧ ∀ p c, Obs.stepTimer p c ∉ l

theorem ProgramsNoStepTimer.refl (s : State) : ProgramsNoStepTimer s s := ⟨[], by simp, by simp⟩

theorem ProgramsNoStepTimer.trans {s t u : State} (h : ProgramsNoStepTimer s t) (h' : ProgramsNoStepTimer t u) :
    ProgramsNoStepTimer s u := by
  obtain ⟨l, hl, hno⟩ := h
  obtain ⟨l', hl', hno'⟩ := h'
  refine ⟨l ++ l', by rw [hl', hl, List.append_assoc], fun p c hmem => ?_⟩
  obtain hmem | hmem := List.mem_append.1 hmem
  · exact hno p c hmem
  · exact hno' p c hmem

/-- A sample adds its read and the intensity it sets (R203). -/
theorem takeSample_trace (b : MotionBlock) (s : State) :
    (takeSample b s).trace =
      s.trace ++ [.rasterRead (rasterByte s), .laserDuty (rasterMap (rasterByte s) b.nominalLaserIntensity)] := by
  have hbyte : rasterByte { s with pixelCounter := 0 } = rasterByte s := rfl
  simp [takeSample, controlLaserIntensity, rasterRead, hbyte]

/-- The raster sample of a `StepExit` adds a sample or nothing (R203, R226). -/
theorem sampleIfRaster_programsNoStepTimer (k : MotionKind) (b : MotionBlock) (s : State) :
    ProgramsNoStepTimer s (sampleIfRaster k b s) := by
  cases k with
  | line => exact .refl s
  | raster =>
    simp only [sampleIfRaster, rasterSample]
    split
    · split
      · exact ⟨_, takeSample_trace b s, by simp⟩
      · exact .refl s
    · exact .refl s

/-- Completion adds strobes only (R228). -/
theorem completeIfDone_programsNoStepTimer (k : MotionKind) (b : MotionBlock) (s : State) :
    ProgramsNoStepTimer s (completeIfDone k b s) := by
  unfold completeIfDone
  split
  · cases k with
    | line => exact ⟨[.plannerDiscardCurrentBlock], rfl, by simp⟩
    | raster =>
      exact ⟨[.plannerDiscardCurrentBlock, .serialConsumeData],
        by simp [completeBlock, serialConsumeData, plannerDiscard], by simp⟩
  · exact .refl s

/-- So a `StepExit` programs the step timer in its speed profile or not at all (R158, R226). -/
theorem motionExit_programsNoStepTimer (k : MotionKind) (b : MotionBlock) (s : State) :
    ProgramsNoStepTimer (speedProfile k b (countEvent s)) (motionExit k b s) :=
  (sampleIfRaster_programsNoStepTimer k b _).trans (completeIfDone_programsNoStepTimer k b _)

/-! ### A change of the rate (R158, R200) -/

/-- The speed profile on a change of the rate to `r`, as one update: the step timer, then the dimming (R158). -/
theorem speedProfile_of_changed (k : MotionKind) {b : MotionBlock} {s : State} {r : Nat}
    (hr : (runPhase b s).adjustedRate = r) (h : r ≠ s.adjustedRate) :
    speedProfile k b s =
      { s with
        adjustedRate := r, accCounter := (runPhase b s).accCounter
        stepPrescaler := (selectPrescaler (rateToCycles s.cfg r)).1
        stepCeiling := (selectPrescaler (rateToCycles s.cfg r)).2
        cyclesPerStepEvent := achievedPeriod (rateToCycles s.cfg r)
        laserDuty := refreshedIntensity k b { s with adjustedRate := r }
        trace := s.trace ++
          [.stepTimer (selectPrescaler (rateToCycles s.cfg r)).1 (selectPrescaler (rateToCycles s.cfg r)).2] ++
          [.laserDuty (refreshedIntensity k b { s with adjustedRate := r })] } := by
  obtain ⟨hsame, -⟩ | ⟨-, e⟩ := speedProfile_cases k b s
  · exact absurd (hr.symm.trans hsame) h
  · have hphase : runPhase b s = { s with adjustedRate := r, accCounter := (runPhase b s).accCounter } := by
      rw [← hr]
      exact runPhase_frame b s
    rw [e, hr, hphase]
    rfl

/-- The speed profile with the rate unchanged is its phase (R158). -/
theorem speedProfile_of_kept (k : MotionKind) {b : MotionBlock} {s : State}
    (h : (runPhase b s).adjustedRate = s.adjustedRate) : speedProfile k b s = runPhase b s := if_pos h

/-- The timer registers a `StepExit` leaves are those its speed profile leaves (R158). -/
theorem motionExit_timer (k : MotionKind) (b : MotionBlock) (s : State) :
    (motionExit k b s).stepPrescaler = (speedProfile k b (countEvent s)).stepPrescaler ∧
      (motionExit k b s).stepCeiling = (speedProfile k b (countEvent s)).stepCeiling ∧
      (motionExit k b s).cyclesPerStepEvent = (speedProfile k b (countEvent s)).cyclesPerStepEvent := by
  rw [motionExit_frame]
  exact ⟨rfl, rfl, rfl⟩

/-- Of a `LINE` nothing after the speed profile writes the intensity (R201). -/
theorem motionExit_line_laserDuty (b : MotionBlock) (s : State) :
    (motionExit .line b s).laserDuty = (speedProfile .line b (countEvent s)).laserDuty := by
  unfold motionExit sampleIfRaster
  rw [completeIfDone_frame]

/-- A `StepExit` that changes the rate reprograms the step timer and refreshes the dimming, in this order and before
whatever else it writes to the trace (R158, R200). -/
theorem motionExit_of_rate_changed (k : MotionKind) {b : MotionBlock} {s : State}
    (h : (motionExit k b s).adjustedRate ≠ s.adjustedRate) :
    ((motionExit k b s).stepPrescaler, (motionExit k b s).stepCeiling) =
        selectPrescaler (rateToCycles s.cfg (motionExit k b s).adjustedRate) ∧
      (motionExit k b s).cyclesPerStepEvent =
        period (motionExit k b s).stepPrescaler (motionExit k b s).stepCeiling ∧
      [.stepTimer (motionExit k b s).stepPrescaler (motionExit k b s).stepCeiling,
        .laserDuty (refreshedIntensity k b { s with adjustedRate := (motionExit k b s).adjustedRate })] <+:
          newTrace s (motionExit k b s) ∧
      (k = .line → (motionExit k b s).laserDuty =
        refreshedIntensity k b { s with adjustedRate := (motionExit k b s).adjustedRate }) := by
  obtain ⟨hprescaler, hceiling, hcycles⟩ := motionExit_timer k b s
  obtain ⟨l, htrace, -⟩ := motionExit_programsNoStepTimer k b s
  have hprofile := speedProfile_of_changed k (b := b) (s := countEvent s) (motionExit_phase k b s).1.symm h
  rw [hprofile] at hprescaler hceiling hcycles htrace
  refine ⟨?_, ?_, ?_, ?_⟩
  · rw [hprescaler, hceiling]
    rfl
  · rw [hprescaler, hceiling, hcycles]
    rfl
  · rw [newTrace, htrace, hprescaler, hceiling]
    simp only [List.append_assoc, countEvent, List.drop_left]
    exact ⟨l, rfl⟩
  · rintro rfl
    rw [motionExit_line_laserDuty, hprofile]
    rfl

/-- A `StepExit` that keeps the rate programs no timer, and that of a `LINE` keeps the intensity (R158, R201). -/
theorem motionExit_of_rate_kept (k : MotionKind) {b : MotionBlock} {s : State}
    (h : (motionExit k b s).adjustedRate = s.adjustedRate) :
    (motionExit k b s).stepPrescaler = s.stepPrescaler ∧ (motionExit k b s).stepCeiling = s.stepCeiling ∧
      (motionExit k b s).cyclesPerStepEvent = s.cyclesPerStepEvent ∧
      (∀ p c, Obs.stepTimer p c ∉ newTrace s (motionExit k b s)) ∧
      (k = .line → (motionExit k b s).laserDuty = s.laserDuty) := by
  obtain ⟨hprescaler, hceiling, hcycles⟩ := motionExit_timer k b s
  obtain ⟨l, htrace, hno⟩ := motionExit_programsNoStepTimer k b s
  have hprofile : speedProfile k b (countEvent s) = runPhase b (countEvent s) :=
    speedProfile_of_kept k ((motionExit_phase k b s).1.symm.trans h)
  rw [runPhase_frame] at hprofile
  rw [hprofile] at hprescaler hceiling hcycles htrace
  refine ⟨hprescaler, hceiling, hcycles, fun p c => ?_, ?_⟩
  · have hnew : newTrace s (motionExit k b s) = l := by
      rw [newTrace, htrace]
      simp only [countEvent, List.drop_left]
    rw [hnew]
    exact hno p c
  · rintro rfl
    rw [motionExit_line_laserDuty, hprofile]
    rfl

/-- Settles O28: the refusal of a rate without a period, then a changed and an unchanged rate. -/
theorem rateChangeReprogramsTimerAndDimming : Obligations.RateChangeReprogramsTimerAndDimming := by
  refine ⟨fun k b s hb hf hd hp => exec_exit_of_no_period hb hf hd hp, fun k b s hb hf hd hp => ?_⟩
  refine ⟨motionExit k b s, exec_exit_of_period hb hf hd hp, fun hchanged => ?_, motionExit_of_rate_kept k⟩
  have hexit := motionExit_of_rate_changed k hchanged
  cases k <;> exact hexit

end Sys2Proof.Machine
end

section
/-! A motion block from its first step event to its last (R177, R178, R231), and the pulse shaper's fire (R175). The
accumulator and its pulses balance: over `n` events `counter + N * pulses` grows by `n * steps`. After `N` events the
balance and the range `(-N, 0]` leave one accumulator value only, the seed. A run of the model is then tied to that
count axis by axis, one step event after the other. -/

namespace Sys2Proof.Machine

/-! ### One accumulator over a block (R171, R177) -/

/-- One event of one accumulator with its pulses: what `countPulses` iterates. -/
def countPulse (steps count : Nat) (p : Int × Nat) : Int × Nat :=
  (axisCounter steps count p.1, if axisPulse steps p.1 then p.2 + 1 else p.2)

/-- `countPulses` makes its first event first, by definition; its last event may as well be made last. -/
theorem countPulses_succ (steps count n : Nat) (p : Int × Nat) :
    countPulses steps count (n + 1) p = countPulse steps count (countPulses steps count n p) := by
  induction n generalizing p with
  | zero => rfl
  | succ n ih => exact ih (countPulse steps count p)

/-- One event adds `steps` to the balance: a pulse takes `count` off the accumulator and is one pulse more. -/
theorem countPulse_balance (steps count : Nat) (p : Int × Nat) :
    (countPulse steps count p).1 + count * (countPulse steps count p).2 = p.1 + count * p.2 + steps := by
  unfold countPulse axisCounter
  cases axisPulse steps p.1
  · simp only [Bool.false_eq_true, if_false]
    ring
  · simp only [if_true]
    push_cast
    ring

/-- So `n` events add `n * steps`. -/
theorem countPulses_balance (steps count n : Nat) (p : Int × Nat) :
    (countPulses steps count n p).1 + count * (countPulses steps count n p).2 = p.1 + count * p.2 + n * steps := by
  induction n with
  | zero => simp [countPulses]
  | succ n ih =>
    rw [countPulses_succ, countPulse_balance, ih]
    push_cast
    ring

/-- The accumulator stays in `(-count, 0]` over any number of events (R178). -/
theorem countPulses_inRange {steps count : Nat} (hs : steps ≤ count) {p : Int × Nat} (hp : CounterInRange count p.1)
    (n : Nat) : CounterInRange count (countPulses steps count n p).1 := by
  induction n with
  | zero => exact hp
  | succ n ih =>
    rw [countPulses_succ]
    exact axisCounter_inRange hs ih

/-- Two accumulators in `(-count, 0]` that differ by a multiple of `count` are equal. -/
theorem eq_of_counterInRange {count : Nat} {c d m : Int} (hc : CounterInRange count c) (hd : CounterInRange count d)
    (h : c = d + count * m) : c = d ∧ m = 0 := by
  obtain ⟨hclow, hchigh⟩ := hc
  obtain ⟨hdlow, hdhigh⟩ := hd
  have hcount : (0 : Int) < count := by omega
  have hdiff : (count : Int) * m = 0 :=
    Int.eq_zero_of_abs_lt_dvd (Int.dvd_mul_right _ _) (abs_lt.2 ⟨by omega, by omega⟩)
  obtain hzero | hm := mul_eq_zero.1 hdiff
  · exact absurd hzero hcount.ne'
  · exact ⟨by rw [h, hdiff, add_zero], hm⟩

/-- Settles O30: by the balance the accumulator has moved by a multiple of `n`, and in its range that is no move. -/
theorem exactlyStepsPulsesInABlock : Obligations.ExactlyStepsPulsesInABlock := by
  intro steps n hn hs
  have hseed := midpoint_inRange hn
  have hend := countPulses_inRange hs (p := (-((n / 2 : Nat) : Int), 0)) hseed n
  have hbalance := countPulses_balance steps n n (-((n / 2 : Nat) : Int), 0)
  obtain ⟨hcounter, hpulses⟩ := eq_of_counterInRange hend hseed
    (m := steps - (countPulses steps n n (-((n / 2 : Nat) : Int), 0)).2) (by
      simp only [Nat.cast_zero, mul_zero, add_zero] at hbalance
      linear_combination hbalance)
  exact Prod.ext hcounter (by simp only; omega)

/-! ### One axis of a running block -/

/-- The accumulator of axis `a` and its pulses after `n` events of the block, from the midpoint seed (R224). -/
def axisRun (b : MotionBlock) (a : Axis) (n : Nat) : Int × Nat :=
  countPulses ((steps b).get a) (eventCount b) n (-((eventCount b / 2 : Nat) : Int), 0)

/-- A number of pulses on axis `a` as a distance, in the direction of its dir bit (R30). -/
def signedPulses (b : MotionBlock) (a : Axis) (n : Nat) : Int := if dirNegative b.directionBits a then -n else n

/-- In `t` axis `a` stands where the block takes it from `s` in a run `p` of its accumulator (R171). -/
structure AxisRan (b : MotionBlock) (a : Axis) (p : Int × Nat) (s t : State) : Prop where
  counter : t.counter.get a = p.1
  pulses : t.pulses.get a = s.pulses.get a + p.2
  position : t.position.get a = s.position.get a + signedPulses b a p.2

/-- A pulse more is a unit more in the direction of the dir bit. -/
theorem axisPosition_add_signedPulses (b : MotionBlock) (a : Axis) (pulse : Bool) (position : Int) (n : Nat) :
    axisPosition pulse (dirNegative b.directionBits a) (position + signedPulses b a n) =
      position + signedPulses b a (if pulse then n + 1 else n) := by
  unfold axisPosition signedPulses
  cases pulse
  · rfl
  · cases dirNegative b.directionBits a
    · simp only [Bool.false_eq_true, if_false, if_true]
      push_cast
      ring
    · simp only [if_true]
      push_cast
      ring

/-- The distributor makes one event of each axis's accumulator (R171). -/
theorem AxisRan.bresenhamStep {b : MotionBlock} {a : Axis} {p : Int × Nat} {s t : State} (h : AxisRan b a p s t) :
    AxisRan b a (countPulse ((steps b).get a) (eventCount b) p) s (bresenhamStep b t) := by
  obtain ⟨hcounter, hpulses, hposition⟩ := h
  rw [bresenhamStep_eq]
  constructor <;> simp only [distribute, pulsingAxes, get_ofFn, hcounter, hpulses, hposition, countPulse]
  · split <;> rfl
  · exact axisPosition_add_signedPulses b a _ _ _

/-- An operation that writes no accumulator, no pulse count and no position leaves the run where it is. -/
theorem AxisRan.of_eq {b : MotionBlock} {a : Axis} {p : Int × Nat} {s t u : State} (h : AxisRan b a p s t)
    (hcounter : u.counter = t.counter) (hpulses : u.pulses = t.pulses) (hposition : u.position = t.position) :
    AxisRan b a p s u :=
  ⟨by rw [hcounter, h.counter], by rw [hpulses, h.pulses], by rw [hposition, h.position]⟩

/-! ### Rates that leave the step timer a period (R136) -/

/-- A rate between the minimum and the nominal rate of a well-formed block has a period (R112 (g), R132). -/
theorem hasPeriod_of_rate {c : Config} {b : MotionBlock} {r : Nat} (hv : c.Valid) (hb : b.RateReachable c)
    (hlow : c.minimumStepsPerMinute ≤ r) (hhigh : r ≤ b.nominalRate.toNat) : HasPeriod c r := by
  obtain ⟨-, -, hmin, -⟩ := hv
  rw [HasPeriod, Nat.max_eq_left hlow]
  exact (Nat.div_pos (hhigh.trans hb) (hmin.trans hlow)).ne'

/-- The initial rate of a well-formed block has a period. -/
theorem hasPeriod_initialRate {c : Config} {b : MotionBlock} (hv : c.Valid) (hw : b.WellFormed c) :
    HasPeriod c b.initialRate.toNat := by
  obtain ⟨-, -, -, -, -, ⟨⟨hlow, hhigh⟩, -⟩, hreach, -⟩ := hw
  exact hasPeriod_of_rate hv hreach hlow hhigh

/-- A well-formed block is dimmed by a nominal rate of at least 1 (R112 (f), R197). -/
theorem dimmable_of_wellFormed {c : Config} {b : MotionBlock} (hv : c.Valid) (hw : b.WellFormed c) (k : MotionKind) :
    Dimmable k b := by
  obtain ⟨-, -, hmin, -⟩ := hv
  obtain ⟨-, -, -, -, -, ⟨⟨hlow, hhigh⟩, -⟩, -, -⟩ := hw
  rintro - hzero
  have hpositive : 1 ≤ b.nominalRate.toNat := (hmin.trans hlow).trans hhigh
  simp [hzero] at hpositive

/-- With the rate in its range (R165) the `StepExit` of a well-formed block leaves the step timer a period. -/
theorem exitHasPeriod_of_blockRanges {b : MotionBlock} {s : State} (hv : s.cfg.Valid) (hw : b.WellFormed s.cfg)
    (h : BlockRanges b s) (hc : s.stepCeiling ≠ 0) : ExitHasPeriod b s := by
  obtain ⟨-, -, -, -, -, ⟨-, hfinal, hfinal'⟩, hreach, -⟩ := hw
  obtain ⟨hlow, hhigh⟩ := h.rate
  obtain ⟨hlow', hhigh'⟩ :=
    runPhase_rate (s := countEvent s) (hfinal.trans hfinal') le_rfl hfinal hfinal' hlow hhigh
  rw [runPhase_adjustedRate] at hlow' hhigh'
  unfold ExitHasPeriod
  split
  · exact hc
  · exact hasPeriod_of_rate hv hreach hlow' hhigh'

/-! ### One step event of a running block (R226) -/

/-- `t` is what `s` becomes in `n` step events of the motion block, the block being current and not yet complete. -/
structure AfterEvents (k : MotionKind) (b : MotionBlock) (s : State) (n : Nat) (t : State) : Prop where
  cfg : t.cfg = s.cfg
  busy : t.busy = false
  currentBlock : t.currentBlock = some (k.block b)
  queue : t.queue = s.queue
  completed : t.stepEventsCompleted = n
  ceiling : t.stepCeiling ≠ 0
  ranges : BlockRanges b t
  axes : ∀ a : Axis, AxisRan b a (axisRun b a n) s t

/-- A whole step event of a motion block: `StepEnter`'s part, then `StepExit` (R215). -/
def stepEvent (k : MotionKind) (b : MotionBlock) (t : State) : State := motionExit k b (motionEnter k b t)

section
variable {k : MotionKind} {b : MotionBlock} {s t : State} {n : Nat}

/-- The `StepEnter` of a current block as one update of what the distributor writes. -/
theorem AfterEvents.motionEnter_eq (h : AfterEvents k b s n t) :
    motionEnter k b t = { Machine.bresenhamStep b t with busy := true } :=
  motionEnter_of_current (by rw [h.currentBlock]; rfl)

/-- Of a current block `StepEnter` keeps all the registers in question but `busy` and those of the axes. -/
theorem AfterEvents.motionEnter_fields (h : AfterEvents k b s n t) :
    (motionEnter k b t).cfg = s.cfg ∧ (motionEnter k b t).busy = true ∧
      (motionEnter k b t).currentBlock = some (k.block b) ∧ (motionEnter k b t).queue = s.queue ∧
      (motionEnter k b t).stepEventsCompleted = n ∧ (motionEnter k b t).stepCeiling ≠ 0 := by
  rw [h.motionEnter_eq, bresenhamStep_eq]
  exact ⟨h.cfg, rfl, h.currentBlock, h.queue, h.completed, h.ceiling⟩

/-- Between `StepEnter` and `StepExit` the registers of the block are in their ranges. -/
theorem AfterEvents.motionEnter_blockRanges (h : AfterEvents k b s n t) (hw : b.WellFormed s.cfg) :
    BlockRanges b (motionEnter k b t) := by
  obtain ⟨hmax, -⟩ := hw
  rw [h.motionEnter_eq]
  exact (bresenhamStep_blockRanges hmax h.ranges).withBusy true

/-- Both parts of the step event answer a next state (R136, R197, R352 refuse none of them). -/
theorem AfterEvents.exec_eq (h : AfterEvents k b s n t) (hv : s.cfg.Valid) (hw : b.WellFormed s.cfg) :
    exec (k.block b).toInstr t = .next (motionEnter k b t) ∧
      exec (k.block b).toInstr (motionEnter k b t) = .next (stepEvent k b t) := by
  obtain ⟨hcfg, hbusy, -, -, -, hceiling⟩ := h.motionEnter_fields
  have hd : Dimmable k b := dimmable_of_wellFormed hv hw k
  have hranges := h.motionEnter_blockRanges hw
  have hfits : CountFits (motionEnter k b t) := by
    have hcompleted := hranges.completed
    obtain ⟨-, -, -, -, hcount, -⟩ := hw
    unfold eventCount at hcompleted
    unfold CountFits
    omega
  constructor
  · rw [exec_motion hd, motionStep_enter h.busy]
    exact goOn_of_period hceiling
  · rw [← hcfg] at hv hw
    exact exec_exit_of_period hbusy hfits hd (exitHasPeriod_of_blockRanges hv hw hranges hceiling)

/-- Each axis has made one event more (R171): the distributor makes it and `StepExit` writes none of its registers. -/
theorem AfterEvents.stepEvent_axes (h : AfterEvents k b s n t) (a : Axis) :
    AxisRan b a (axisRun b a (n + 1)) s (stepEvent k b t) := by
  have hstep : AxisRan b a (axisRun b a (n + 1)) s (bresenhamStep b t) := by
    rw [axisRun, countPulses_succ]
    exact (h.axes a).bresenhamStep
  rw [stepEvent, motionExit_frame, h.motionEnter_eq]
  exact hstep.of_eq rfl rfl rfl

/-- A step event that is not the last leaves the block current (R228). -/
theorem AfterEvents.succ (h : AfterEvents k b s n t) (hv : s.cfg.Valid) (hw : b.WellFormed s.cfg)
    (hn : n + 1 ≠ eventCount b) : AfterEvents k b s (n + 1) (stepEvent k b t) := by
  obtain ⟨hcfg, -, hcurrent, hqueue, hcompleted, -⟩ := h.motionEnter_fields
  obtain ⟨-, hexit⟩ := h.exec_eq hv hw
  obtain ⟨-, hceiling, -⟩ := exec_motion_next hexit
  have hranges : BlockRanges b (stepEvent k b t) :=
    motionExit_blockRanges k (hcfg ▸ hw) (h.motionEnter_blockRanges hw) (hcompleted ▸ hn)
  have haxes := h.stepEvent_axes
  rw [stepEvent, motionExit_frame, hcompleted] at hceiling hranges haxes ⊢
  exact ⟨hcfg, rfl, (if_neg hn).trans hcurrent, (if_neg hn).trans hqueue, rfl, hceiling, hranges, haxes⟩

/-- The last step event completes the block (R228). -/
theorem AfterEvents.stepEvent_completes (h : AfterEvents k b s n t) (hn : n + 1 = eventCount b) :
    (stepEvent k b t).currentBlock = none ∧ (stepEvent k b t).queue = s.queue.tail ∧
      (stepEvent k b t).busy = false ∧ (stepEvent k b t).stepEventsCompleted = eventCount b := by
  obtain ⟨-, -, -, hqueue, hcompleted, -⟩ := h.motionEnter_fields
  rw [stepEvent, motionExit_frame, hcompleted]
  exact ⟨if_pos hn, (if_pos hn).trans (by rw [hqueue]), rfl, hn⟩

/-! ### The fetch (R222, R224) -/

/-- With no block current the block is fetched and initialised (R222, R224). -/
theorem enterBlock_of_fetch (hc : s.currentBlock = none) :
    enterBlock k b s = motionBlockInit k b (fetchBlock (k.block b) s) := by
  simp [enterBlock, hc]

/-- The fetch and initialisation of the block, in a state of its own: no event of the block has been made. -/
theorem enterBlock_afterEvents (hv : s.cfg.Valid) (hw : b.WellFormed s.cfg) (hb : s.busy = false)
    (hc : s.currentBlock = none) : AfterEvents k b s 0 (enterBlock k b s) := by
  have hranges : BlockRanges b (motionBlockInit k b (fetchBlock (k.block b) s)) := motionBlockInit_blockRanges k hw
  have hceiling : (motionBlockInit k b (fetchBlock (k.block b) s)).stepCeiling ≠ 0 :=
    (setStepRate_ceiling_ne_zero _ s).2 (hasPeriod_initialRate hv hw)
  rw [enterBlock_of_fetch hc]
  rw [motionBlockInit_eq] at hranges hceiling ⊢
  refine ⟨rfl, hb, rfl, rfl, rfl, hceiling, hranges, fun a => ⟨?_, rfl, ?_⟩⟩
  · cases a <;> rfl
  · simp [signedPulses, axisRun, countPulses, fetchBlock]

/-- The first invocation fetches and steps in one; it does as one that finds the block fetched (R224). -/
theorem exec_enterBlock (hd : Dimmable k b) (hb : s.busy = false) (hc : s.currentBlock = none) :
    exec (k.block b).toInstr (enterBlock k b s) = exec (k.block b).toInstr s := by
  have hcurrent : (enterBlock k b s).currentBlock.isSome = true := by rw [enterBlock_of_fetch hc]; rfl
  have hbusy : (enterBlock k b s).busy = false := by rw [enterBlock_of_fetch hc]; exact hb
  rw [exec_motion hd, exec_motion hd, motionStep_enter hbusy, motionStep_enter hb, motionEnter_of_current hcurrent]
  rfl

end

/-! ### The run (R231) -/

/-- A run depends on its first state only through the first part of the first event. -/
theorem runStepEvents_congr {i : Instr} {s t : State} (h : exec i s = exec i t) (n : Nat) :
    runStepEvents i (n + 1) s = runStepEvents i (n + 1) t := by
  simp only [runStepEvents, h]

/-- A run makes its first event first, by definition; one more event may as well be made last. -/
theorem runStepEvents_succ {i : Instr} {n : Nat} {s t u v : State} (h : runStepEvents i n s = .next t)
    (hu : exec i t = .next u) (hv : exec i u = .next v) : runStepEvents i (n + 1) s = .next v := by
  induction n generalizing s with
  | zero =>
    obtain rfl : s = t := Host.Outcome.next.inj h
    simp only [runStepEvents, hu, hv]
  | succ n ih =>
    rw [runStepEvents] at h ⊢
    cases hx : exec i s with
    | next x =>
      simp only [hx] at h ⊢
      cases hy : exec i x with
      | next y =>
        simp only [hy] at h ⊢
        exact ih h
      | fault r => simp [hy] at h
      | refused r => simp [hy] at h
    | fault r => simp [hx] at h
    | refused r => simp [hx] at h

section
variable {k : MotionKind} {b : MotionBlock} {s : State}

/-- From the fetched block every number of step events short of the last is made and leaves the block current. -/
theorem runStepEvents_afterEvents (hv : s.cfg.Valid) (hw : b.WellFormed s.cfg) (hb : s.busy = false)
    (hc : s.currentBlock = none) {n : Nat} (hn : n < eventCount b) :
    ∃ t, runStepEvents (k.block b).toInstr n (enterBlock k b s) = .next t ∧ AfterEvents k b s n t := by
  induction n with
  | zero => exact ⟨_, rfl, enterBlock_afterEvents hv hw hb hc⟩
  | succ n ih =>
    obtain ⟨t, hrun, ht⟩ := ih (Nat.lt_of_succ_lt hn)
    obtain ⟨henter, hexit⟩ := ht.exec_eq hv hw
    exact ⟨_, runStepEvents_succ hrun henter hexit, ht.succ hv hw hn.ne⟩

/-- From a core between blocks, which fetches the block first. -/
theorem runStepEvents_enterBlock (hv : s.cfg.Valid) (hw : b.WellFormed s.cfg) (hb : s.busy = false)
    (hc : s.currentBlock = none) {n : Nat} (hn : 0 < n) :
    runStepEvents (k.block b).toInstr n s = runStepEvents (k.block b).toInstr n (enterBlock k b s) := by
  obtain ⟨n, rfl⟩ := Nat.exists_eq_succ_of_ne_zero hn.ne'
  exact runStepEvents_congr (exec_enterBlock (dimmable_of_wellFormed hv hw k) hb hc).symm n

/-- The whole run ends in the step event that follows all the others. -/
theorem runStepEvents_eventCount (hv : s.cfg.Valid) (hw : b.WellFormed s.cfg) (hb : s.busy = false)
    (hc : s.currentBlock = none) :
    ∃ n t, n + 1 = eventCount b ∧ AfterEvents k b s n t ∧
      runStepEvents (k.block b).toInstr (eventCount b) s = .next (stepEvent k b t) := by
  have hpos : 0 < eventCount b := by
    obtain ⟨-, -, -, hpos, -⟩ := hw
    exact hpos
  have hn : eventCount b - 1 + 1 = eventCount b := Nat.sub_add_cancel hpos
  obtain ⟨t, hrun, ht⟩ := runStepEvents_afterEvents (k := k) hv hw hb hc (Nat.sub_one_lt hpos.ne')
  obtain ⟨henter, hexit⟩ := ht.exec_eq hv hw
  refine ⟨_, t, hn, ht, ?_⟩
  rw [runStepEvents_enterBlock hv hw hb hc hpos, ← hn]
  exact runStepEvents_succ hrun henter hexit

/-- Over all its events the block moves each axis by its steps and leaves the accumulator at its seed (R177). -/
theorem axisRun_eventCount (hw : b.WellFormed s.cfg) (a : Axis) :
    axisRun b a (eventCount b) = (-((eventCount b / 2 : Nat) : Int), (steps b).get a) := by
  obtain ⟨hmax, -, -, hpos, -⟩ := hw
  exact exactlyStepsPulsesInABlock _ _ hpos (steps_le_eventCount hmax a)

end

/-- Settles O31: the events short of the last by induction, then the last, which completes the block; the count of one
accumulator over the whole block gives each axis. -/
theorem motionBlockRunsToCompletion : Obligations.MotionBlockRunsToCompletion := by
  rintro k b s hv ⟨hw, -⟩ hb hc
  refine ⟨fun n hn hlast => ?_, ?_⟩
  · obtain ⟨t, hrun, ht⟩ := runStepEvents_afterEvents (k := k) hv hw hb hc hlast
    rw [runStepEvents_enterBlock hv hw hb hc hn]
    exact ⟨t, hrun, ht.currentBlock, ht.queue, ht.completed⟩
  · obtain ⟨n, t, hn, ht, hrun⟩ := runStepEvents_eventCount (k := k) hv hw hb hc
    obtain ⟨hcurrent, hqueue, hbusy, hcompleted⟩ := ht.stepEvent_completes hn
    refine ⟨stepEvent k b t, hrun, hcurrent, hqueue, hbusy, hcompleted, fun a => ?_⟩
    have haxis := ht.stepEvent_axes a
    rw [hn, axisRun_eventCount hw a] at haxis
    exact ⟨haxis.position, haxis.pulses, haxis.counter⟩

/-! ### The pulse shaper's fire (R175) -/

/-- The fire as one update. -/
theorem pulseReset_eq (s : State) :
    pulseReset s =
      { s with
        stepPin := stepPart s.cfg.invertMask, pulseArmed := false
        trace := s.trace ++ [.stepPin (stepPart s.cfg.invertMask)] } := rfl

/-- The fire of an armed pulse shaper occurs at its deadline (R175, R370). -/
theorem perform_pulseResetFire {s : State} (h : s.pulseArmed = true) :
    perform .pulseResetFire s = .next (pulseReset { s with now := max s.now s.pulseDeadline }) := if_pos h

/-- The fire of one that is not armed is no event that can occur (R300). -/
theorem perform_pulseResetFire_of_not_armed {s : State} (h : s.pulseArmed = false) :
    perform .pulseResetFire s = .refused .eventNotEnabled := if_neg (Bool.eq_false_iff.1 h)

/-- Settles O16: the fire never waits, and whether the one-shot is armed decides it. -/
theorem pulseResetRestoresIdle : Obligations.PulseResetRestoresIdle := by
  intro s rest hi ha
  have hstep : step s = perform .pulseResetFire { s with agenda := rest } := step_of_agenda hi ha rfl
  refine ⟨fun harmed => ?_, fun hnot => ?_⟩
  · rw [hstep, perform_pulseResetFire (s := { s with agenda := rest }) harmed, pulseReset_eq]
  · rw [hstep]
    exact perform_pulseResetFire_of_not_armed (s := { s with agenda := rest }) hnot

end Sys2Proof.Machine
end

section
/-! The Beam Modulator on its own (R190 to R196): the intensity as a host operation, the laser pulse of step 5, and the
beam one-shot's fire. -/

namespace Sys2Proof.Machine

/-! ### The intensity (R190) -/

/-- `control_laser_intensity` as one update (R190). -/
theorem controlLaserIntensity_eq (v : Byte) (s : State) :
    controlLaserIntensity v s = { s with laserDuty := v, trace := s.trace ++ [.laserDuty v] } := rfl

/-- Settles O33: on a ready core the operation has its effect, which is the one update. -/
theorem controlLaserIntensityWritesTheDutyOnly : Obligations.ControlLaserIntensityWritesTheDutyOnly := by
  intro v s hb hh
  have heffect : exec (.controlLaserIntensity v) s = .next (controlLaserIntensity v s) :=
    hostOperation_of_ready (controlLaserIntensity v) hb hh
  rw [heffect, controlLaserIntensity_eq]

/-! ### The laser pulse (R191, R192) -/

/-- R191 with `EVERY` reached: the counter restarts and a pulse is issued. -/
theorem beamStepPulse_of_due {s : State} (h : s.cfg.beamEvery ≤ s.pwmCounter) :
    beamStepPulse s = issueLaserPulse { s with pwmCounter := 1 } := if_pos (decide_eq_true h)

/-- R191 with `EVERY` not reached: the counter advances, no pulse. -/
theorem beamStepPulse_of_not_due {s : State} (h : s.pwmCounter < s.cfg.beamEvery) :
    beamStepPulse s = { s with pwmCounter := s.pwmCounter + 1 } := by
  have hnot : laserPulseDue s = false := decide_eq_false (Nat.not_le.2 h)
  simp [beamStepPulse, hnot]

/-- Settles O34: the two outcomes of the test. -/
theorem laserPulseEveryEveryInvocations : Obligations.LaserPulseEveryEveryInvocations :=
  fun _ => ⟨beamStepPulse_of_due, beamStepPulse_of_not_due⟩

/-- Setting the laser pin as one update (R43). -/
theorem setLaserPin_eq (v : Bool) (s : State) :
    setLaserPin v s = { s with laserPin := v, trace := s.trace ++ [.laserPin v] } := rfl

/-- A duty from 242 on is not duty 0. -/
theorem ne_zero_of_full {d : Byte} (h : dutyFullOn ≤ d.toNat) : d ≠ 0 := by
  rintro rfl
  exact absurd h (by decide)

/-- A pulse at duty 242 and above holds the pin high, without the timer (R192). -/
theorem issueLaserPulse_of_full {s : State} (h : dutyFullOn ≤ s.laserDuty.toNat) :
    issueLaserPulse s = setLaserPin true s := by
  rw [issueLaserPulse, if_neg (ne_zero_of_full h), if_pos h]

/-- A pulse at any other duty raises the pin and arms the beam one-shot for the width of R193 (R192). -/
theorem issueLaserPulse_of_timed {s : State} (h0 : s.laserDuty ≠ 0) (h : s.laserDuty.toNat < dutyFullOn) :
    issueLaserPulse s =
      armBeamTimer (laserPulseWidth s.cfg.beamEvery s.laserDuty s.cyclesPerStepEvent) (setLaserPin true s) := by
  rw [issueLaserPulse, if_neg h0, if_neg (Nat.not_le.2 h)]

/-- Settles O35: one case of the pulse each. -/
theorem laserPulseCases : Obligations.LaserPulseCases := by
  refine fun s => ⟨fun h0 => ?_, fun hfull => ?_, fun h0 hlt => ?_⟩
  · rw [issueLaserPulse_of_zero h0, setLaserPin_eq]
  · rw [issueLaserPulse_of_full hfull, setLaserPin_eq]
  · rw [issueLaserPulse_of_timed h0 hlt, armBeamTimer_eq, setLaserPin_eq]
    simp [laserPulseWidth, achievedPeriod, period]

/-! ### The beam one-shot's fire (R196) -/

/-- The fire as one update. -/
theorem beamReset_eq (s : State) :
    beamReset s = { s with laserPin := false, beamArmed := false, trace := s.trace ++ [.laserPin false] } := rfl

/-- The fire of an armed beam one-shot occurs at its deadline (R196, R371). -/
theorem perform_beamResetFire {s : State} (h : s.beamArmed = true) :
    perform .beamResetFire s = .next (beamReset { s with now := max s.now s.beamDeadline }) := if_pos h

/-- The fire of one that is not armed is no event that can occur (R300). -/
theorem perform_beamResetFire_of_not_armed {s : State} (h : s.beamArmed = false) :
    perform .beamResetFire s = .refused .eventNotEnabled := if_neg (Bool.eq_false_iff.1 h)

/-- Settles O17: the fire never waits, and whether the one-shot is armed decides it. -/
theorem beamResetDropsThePin : Obligations.BeamResetDropsThePin := by
  intro s rest hi ha
  have hstep : step s = perform .beamResetFire { s with agenda := rest } := step_of_agenda hi ha rfl
  rw [hstep]
  refine ⟨fun harmed => ?_, fun hnot => ?_⟩
  · rw [perform_beamResetFire (s := { s with agenda := rest }) harmed, beamReset_eq]
  · exact perform_beamResetFire_of_not_armed (s := { s with agenda := rest }) hnot

end Sys2Proof.Machine
end

section
/-! Dimming (R197, R198). `dimm` and `adjusted` are first put over the one denominator the model computes with, so that
its integer division is the floor of `adjusted`; the bounds of R198 are then shown of the rationals and carried over to
the result by the floor. -/

namespace Sys2Proof.Machine

section
variable {c : Config} {spm nominal : Nat} {intensity : Byte}

/-! ### The formula over one denominator (R197) -/

/-- `dimm` is the quotient the model computes with. -/
theorem dimmValue_eq_div (hd : 0 < c.beamStart.den) :
    dimmValue c intensity = (dimmNum c intensity : ℚ) / dimmDen c := by
  have hd' : (c.beamStart.den : ℚ) ≠ 0 := by positivity
  simp only [dimmValue, dimmNum, dimmDen]
  push_cast
  field_simp

/-- `adjusted` is the quotient whose floor the model takes. -/
theorem adjustedValue_eq_div (hd : 0 < c.beamStart.den) (hn : 0 < nominal) :
    adjustedValue c spm intensity nominal =
      ((intensity.toNat * ((dimmDen c - dimmNum c intensity) * nominal + dimmNum c intensity * spm) : Int) : ℚ) /
        ((255 * c.beamStart.den * nominal : Nat) : ℚ) := by
  have hd' : (c.beamStart.den : ℚ) ≠ 0 := by positivity
  have hn' : (nominal : ℚ) ≠ 0 := by positivity
  rw [adjustedValue, dimmValue_eq_div hd, dimmDen]
  push_cast
  field_simp

/-- The model's integer division is the floor of `adjusted`. -/
theorem dimFloor_eq_floor (hd : 0 < c.beamStart.den) (hn : 0 < nominal) :
    dimFloor c spm intensity nominal = ⌊adjustedValue c spm intensity nominal⌋ := by
  rw [adjustedValue_eq_div hd hn, Rat.floor_intCast_div_natCast, dimFloor, dimmDen]
  push_cast
  rfl

/-- With a nominal rate the formula is evaluated, and the clamp makes its result a byte. -/
theorem dim_toNat (hn : 0 < nominal) :
    ((dim c spm intensity nominal).toNat : Int) = min 255 (max 0 (dimFloor c spm intensity nominal)) := by
  rw [dim, if_neg hn.ne', BitVec.toNat_ofNat]
  omega

/-- The denominator of `START` is positive in a valid configuration (R8). -/
theorem beamStart_den_pos (hv : c.Valid) : 0 < c.beamStart.den := by
  obtain ⟨-, -, -, -, -, -, ⟨hden, -⟩, -⟩ := hv
  exact hden

/-- `START` is at most 1 in a valid configuration (R8). -/
theorem beamStart_num_le_den (hv : c.Valid) : c.beamStart.num ≤ c.beamStart.den := by
  obtain ⟨-, -, -, -, -, -, ⟨-, hle⟩, -⟩ := hv
  exact hle

end

/-- Settles O36: the clamped integer division, and the division is the floor. -/
theorem dimIsTheExactFloor : Obligations.DimIsTheExactFloor := by
  intro c spm nominal intensity hv hn
  rw [dim_toNat hn, dimFloor_eq_floor (beamStart_den_pos hv) hn]

section
variable {c : Config} {spm spm' nominal : Nat} {intensity : Byte}

/-! ### The bounds of the formula (R198) -/

/-- An intensity is at most full scale. -/
theorem intensity_div_le_one (intensity : Byte) : (intensity.toNat : ℚ) / 255 ≤ 1 := by
  have h : (intensity.toNat : ℚ) ≤ 255 := by
    exact_mod_cast Nat.le_of_lt_succ intensity.isLt
  exact (div_le_one (by norm_num)).2 h

/-- `dimm` lies in `[0, 1]`: it goes from `START` to 1 as the intensity goes from 0 to full scale. -/
theorem dimmValue_mem_unit (hv : c.Valid) (intensity : Byte) :
    0 ≤ dimmValue c intensity ∧ dimmValue c intensity ≤ 1 := by
  have hden : (0 : ℚ) < c.beamStart.den := by exact_mod_cast beamStart_den_pos hv
  have hstart : (c.beamStart.num : ℚ) / c.beamStart.den ≤ 1 :=
    (div_le_one hden).2 (by exact_mod_cast beamStart_num_le_den hv)
  have hstart0 : 0 ≤ (c.beamStart.num : ℚ) / c.beamStart.den := by positivity
  have hfull := intensity_div_le_one intensity
  have hfull0 : 0 ≤ (intensity.toNat : ℚ) / 255 := by positivity
  rw [dimmValue, mul_div_assoc]
  refine ⟨add_nonneg hstart0 (mul_nonneg (sub_nonneg.2 hstart) hfull0), ?_⟩
  calc (c.beamStart.num : ℚ) / c.beamStart.den +
        (1 - (c.beamStart.num : ℚ) / c.beamStart.den) * (intensity.toNat / 255)
      ≤ c.beamStart.num / c.beamStart.den + (1 - c.beamStart.num / c.beamStart.den) := by
        gcongr
        exact mul_le_of_le_one_right (sub_nonneg.2 hstart) hfull
    _ = 1 := add_sub_cancel _ _

/-- At the nominal rate `adjusted` is the intensity. -/
theorem adjustedValue_nominal (hn : 0 < nominal) : adjustedValue c nominal intensity nominal = intensity.toNat := by
  have hn' : (nominal : ℚ) ≠ 0 := by positivity
  rw [adjustedValue, mul_div_cancel_right₀ _ hn', sub_add_cancel, mul_one]

/-- `adjusted` never falls as the rate rises. -/
theorem adjustedValue_mono (hv : c.Valid) (h : spm ≤ spm') :
    adjustedValue c spm intensity nominal ≤ adjustedValue c spm' intensity nominal := by
  have hdimm := (dimmValue_mem_unit hv intensity).1
  unfold adjustedValue
  gcongr

/-- `adjusted` is at least what a rate of 0 would leave. -/
theorem le_adjustedValue (hv : c.Valid) :
    intensity.toNat * (1 - dimmValue c intensity) ≤ adjustedValue c spm intensity nominal := by
  have hzero : adjustedValue c 0 intensity nominal = intensity.toNat * (1 - dimmValue c intensity) := by
    simp [adjustedValue]
  rw [← hzero]
  exact adjustedValue_mono hv (Nat.zero_le spm)

/-- Up to the nominal rate `adjusted` is at most the intensity. -/
theorem adjustedValue_le (hv : c.Valid) (hn : 0 < nominal) (h : spm ≤ nominal) :
    adjustedValue c spm intensity nominal ≤ intensity.toNat :=
  adjustedValue_nominal (c := c) (intensity := intensity) hn ▸ adjustedValue_mono hv h

/-! ### The bounds of the result (R198) -/

/-- Up to the nominal rate the floor of `adjusted` lies in `[0, I]`. -/
theorem floor_adjustedValue_mem (hv : c.Valid) (hn : 0 < nominal) (h : spm ≤ nominal) :
    0 ≤ ⌊adjustedValue c spm intensity nominal⌋ ∧ ⌊adjustedValue c spm intensity nominal⌋ ≤ intensity.toNat := by
  have hdimm := sub_nonneg.2 (dimmValue_mem_unit hv intensity).2
  have hnonneg : 0 ≤ adjustedValue c spm intensity nominal :=
    (mul_nonneg (Nat.cast_nonneg _) hdimm).trans (le_adjustedValue hv)
  have hle : adjustedValue c spm intensity nominal ≤ ((intensity.toNat : Int) : ℚ) := by
    exact_mod_cast adjustedValue_le hv hn h
  exact ⟨Int.floor_nonneg.2 hnonneg, Int.floor_le_iff.2 (hle.trans_lt (lt_add_one _))⟩

/-- Up to the nominal rate the clamp never acts. -/
theorem dim_toNat_eq_floor (hv : c.Valid) (hn : 0 < nominal) (h : spm ≤ nominal) :
    ((dim c spm intensity nominal).toNat : Int) = ⌊adjustedValue c spm intensity nominal⌋ := by
  have hmem := floor_adjustedValue_mem (intensity := intensity) hv hn h
  have hbyte := intensity.isLt
  rw [dimIsTheExactFloor c spm nominal intensity hv hn]
  omega

/-- At the nominal rate nothing is dimmed. -/
theorem dim_nominal (hv : c.Valid) (hn : 0 < nominal) : dim c nominal intensity nominal = intensity := by
  have hfloor := dim_toNat_eq_floor (intensity := intensity) hv hn (Nat.le_refl nominal)
  rw [adjustedValue_nominal hn, Int.floor_natCast] at hfloor
  exact BitVec.eq_of_toNat_eq (by exact_mod_cast hfloor)

end

/-- Settles O37: the bounds of the rationals, and through the floor those of the result. -/
theorem dimIsMonotoneAndBounded : Obligations.DimIsMonotoneAndBounded := by
  intro c spm spm' nominal intensity hv hn hle hle'
  have hspm : spm ≤ nominal := hle.trans hle'
  have hmono := adjustedValue_mono (intensity := intensity) (nominal := nominal) hv hle
  have hfloor := dim_toNat_eq_floor (intensity := intensity) hv hn hspm
  have hfloor' := dim_toNat_eq_floor (intensity := intensity) hv hn hle'
  refine ⟨dimmValue_mem_unit hv intensity, hmono, ⟨le_adjustedValue hv, adjustedValue_le hv hn hspm⟩, ?_, ?_, hfloor,
    dim_nominal hv hn⟩
  · have hfloors := Int.floor_le_floor hmono
    omega
  · have hmem := floor_adjustedValue_mem (intensity := intensity) hv hn hspm
    omega

end Sys2Proof.Machine
end

section
/-! The raster map and raster sampling (R203, R204). A raster `StepExit` is its speed profile, its sample and its
completion, one after the other; each is described once, and the statement reads the three together. -/

namespace Sys2Proof.Machine

/-! ### The raster map (R204) -/

/-- A byte below 128 maps to 0. -/
theorem rasterMap_of_low {v : Byte} (h : v.toNat < 128) (i : Byte) : rasterMap v i = 0 := if_pos h

/-- The quotient of the map is at most 254 and so a byte. -/
theorem rasterMap_quotient_le (v i : Byte) : (v.toNat - 128) * 2 * i.toNat / 255 ≤ 254 := by
  have hv : (v.toNat - 128) * 2 ≤ 254 := by omega
  have hi : i.toNat ≤ 255 := by omega
  exact Nat.div_le_of_le_mul ((Nat.mul_le_mul hv hi).trans_eq (Nat.mul_comm 254 255))

/-- Any other byte maps to the quotient. -/
theorem rasterMap_of_high {v : Byte} (h : 128 ≤ v.toNat) (i : Byte) :
    (rasterMap v i).toNat = (v.toNat - 128) * 2 * i.toNat / 255 := by
  have hfits : (v.toNat - 128) * 2 * i.toNat / 255 < 2 ^ 8 := (rasterMap_quotient_le v i).trans_lt (by decide)
  rw [rasterMap, if_neg (Nat.not_lt.2 h), BitVec.toNat_ofNat, Nat.mod_eq_of_lt hfits]

/-- The map over both ranges of the byte. -/
theorem rasterMap_toNat (v i : Byte) :
    (rasterMap v i).toNat = if v.toNat < 128 then 0 else (v.toNat - 128) * 2 * i.toNat / 255 := by
  split
  next hlow => rw [rasterMap_of_low hlow]; rfl
  next hhigh => exact rasterMap_of_high (Nat.not_lt.1 hhigh) i

/-- Settles O38: the values of the two ranges; the extremes are arithmetic. -/
theorem rasterMapValues : Obligations.RasterMapValues := by
  intro v i
  refine ⟨fun hlow => rasterMap_of_low hlow i, fun hhigh => rasterMap_of_high hhigh i, ?_, fun hi => ?_, by decide⟩
  · rw [rasterMap_toNat]
    split
    · exact Nat.zero_le _
    · exact rasterMap_quotient_le v i
  · have hbyte : (255 : Byte).toNat = 255 := rfl
    rw [rasterMap_of_high (by decide), hbyte]
    omega

/-! ### The sample (R203, R78) -/

/-- Phase B is the phase of the events from `accelerate_until` to before `decelerate_after` (R158). -/
theorem blockPhase_eq_cruise_iff (b : MotionBlock) (s : State) :
    blockPhase b s = .cruise ↔
      b.accelerateUntil.toNat ≤ s.stepEventsCompleted ∧ s.stepEventsCompleted < b.decelerateAfter.toNat := by
  unfold blockPhase phaseOf
  split_ifs <;> simp <;> omega

/-- A raster step event takes a sample: it is in Phase B and the `pixel_steps`-th one there (R203). -/
def SampleDue (b : MotionBlock) (s : State) : Prop :=
  blockPhase b s = .cruise ∧ b.pixelSteps.toNat ≤ s.pixelCounter + 1

section
variable {b : MotionBlock} {s : State}

/-- Outside Phase B raster sampling does nothing. -/
theorem rasterSample_of_not_cruise (h : blockPhase b s ≠ .cruise) : rasterSample b s = s := if_neg h

/-- In Phase B without a sample due the pixel counter advances, and that is all. -/
theorem rasterSample_of_counting (h : blockPhase b s = .cruise) (hnot : ¬SampleDue b s) :
    rasterSample b s = { s with pixelCounter := s.pixelCounter + 1 } := by
  rw [rasterSample, if_pos h, if_neg fun hdue => hnot ⟨h, hdue⟩]

/-- A sample due is taken. -/
theorem rasterSample_of_due (h : SampleDue b s) : rasterSample b s = takeSample b s := by
  rw [rasterSample, if_pos h.1, if_pos h.2]

/-- Without a sample raster sampling writes the pixel counter at most. -/
theorem rasterSample_of_not_due (h : ¬SampleDue b s) :
    (rasterSample b s).laserDuty = s.laserDuty ∧ (rasterSample b s).raster = s.raster ∧
      (rasterSample b s).trace = s.trace := by
  by_cases hcruise : blockPhase b s = .cruise
  · rw [rasterSample_of_counting hcruise h]
    exact ⟨rfl, rfl, rfl⟩
  · rw [rasterSample_of_not_cruise hcruise]
    exact ⟨rfl, rfl, rfl⟩

/-- Raster sampling only adds to the trace (R49). -/
theorem rasterSample_trace (b : MotionBlock) (s : State) :
    ∃ sample, (rasterSample b s).trace = s.trace ++ sample := by
  by_cases hdue : SampleDue b s
  · rw [rasterSample_of_due hdue]
    exact ⟨_, takeSample_trace b s⟩
  · obtain ⟨-, -, htrace⟩ := rasterSample_of_not_due hdue
    exact ⟨[], htrace.trans (List.append_nil _).symm⟩

/-- What a sample writes; its trace is `takeSample_trace` (R203). -/
theorem takeSample_fields (b : MotionBlock) (s : State) :
    (takeSample b s).pixelCounter = 0 ∧ (takeSample b s).raster = s.raster.tail ∧
      (takeSample b s).laserDuty = rasterMap (rasterByte s) b.nominalLaserIntensity := ⟨rfl, rfl, rfl⟩

/-- A read answers the head of the stream, if there is one (R78). -/
theorem rasterByte_head (s : State) : s.raster = [] ∨ ∃ more, s.raster = rasterByte s :: more := by
  unfold rasterByte
  cases s.raster with
  | nil => exact .inl rfl
  | cons v more => exact .inr ⟨more, rfl⟩

/-! ### Before the sample: the speed profile (R158, R200) -/

/-- The speed profile of a `RASTER_LINE` sets the intensity to 0 if the rate changes. -/
theorem speedProfile_raster_laserDuty (b : MotionBlock) (s : State) :
    (speedProfile .raster b s).laserDuty = if (runPhase b s).adjustedRate = s.adjustedRate then s.laserDuty else 0 := by
  split
  next hkept =>
    rw [speedProfile_of_kept .raster hkept, runPhase_frame]
  next hchanged =>
    rw [speedProfile_of_changed .raster rfl hchanged]
    rfl

/-- The speed profile adds to the trace, and no read of the raster stream. -/
theorem speedProfile_trace_noRasterRead (k : MotionKind) (b : MotionBlock) (s : State) :
    ∃ l, (speedProfile k b s).trace = s.trace ++ l ∧ ∀ v, Obs.rasterRead v ∉ l := by
  by_cases hkept : (runPhase b s).adjustedRate = s.adjustedRate
  · rw [speedProfile_of_kept k hkept, runPhase_frame]
    exact ⟨[], by simp, by simp⟩
  · rw [speedProfile_of_changed k rfl hkept]
    exact ⟨_, List.append_assoc _ _ _, by simp⟩

/-- The speed profile leaves what the sample reads: the number of the event, the pixel counter and the stream. -/
theorem speedProfile_sampleInputs (k : MotionKind) (b : MotionBlock) (s : State) :
    (speedProfile k b s).stepEventsCompleted = s.stepEventsCompleted ∧
      (speedProfile k b s).pixelCounter = s.pixelCounter ∧ (speedProfile k b s).raster = s.raster := by
  rw [speedProfile_frame]
  exact ⟨rfl, rfl, rfl⟩

/-! ### After the sample: completion (R228, R81) -/

/-- Completion writes neither the pixel counter nor the intensity. -/
theorem completeIfDone_pixelCounter_laserDuty (k : MotionKind) (b : MotionBlock) (s : State) :
    (completeIfDone k b s).pixelCounter = s.pixelCounter ∧ (completeIfDone k b s).laserDuty = s.laserDuty := by
  rw [completeIfDone_frame]
  exact ⟨rfl, rfl⟩

/-- Before its last event a block is not completed. -/
theorem completeIfDone_of_not_done (h : s.stepEventsCompleted ≠ eventCount b) (k : MotionKind) :
    completeIfDone k b s = s := if_neg h

/-- The last event of a `RASTER_LINE` leaves a suffix of the stream (R81). -/
theorem completeIfDone_raster_suffix (h : s.stepEventsCompleted = eventCount b) :
    (completeIfDone .raster b s).raster <:+ s.raster := by
  rw [completeIfDone, if_pos h]
  simp [completeBlock, List.drop_suffix]

/-- What the completion test of a `RASTER_LINE` adds to the trace: on the last event the two strobes. -/
theorem completeIfDone_raster_trace (b : MotionBlock) (s : State) :
    (completeIfDone .raster b s).trace =
      s.trace ++
        if s.stepEventsCompleted = eventCount b then [.plannerDiscardCurrentBlock, .serialConsumeData] else [] := by
  split
  next hdone =>
    rw [completeIfDone, if_pos hdone]
    simp [completeBlock]
  next hnot => rw [completeIfDone_of_not_done hnot, List.append_nil]

end

/-! ### The `StepExit` of a `RASTER_LINE` (R226) -/

/-- The state in which a raster `StepExit` samples: the event counted and the speed profile run. -/
def beforeSample (b : MotionBlock) (s : State) : State := speedProfile .raster b (countEvent s)

/-- The state a raster `StepExit` completes from: the one before the sample, sampled. -/
def afterSample (b : MotionBlock) (s : State) : State := rasterSample b (beforeSample b s)

/-- A raster `StepExit` through its two states. -/
theorem motionExit_raster_eq (b : MotionBlock) (s : State) :
    motionExit .raster b s = { completeIfDone .raster b (afterSample b s) with busy := false } := rfl

section
variable {b : MotionBlock} {s : State}

/-- Sampling finds the number of the event one up, and the pixel counter and the stream as `StepExit` found them. -/
theorem beforeSample_fields (b : MotionBlock) (s : State) :
    (beforeSample b s).stepEventsCompleted = s.stepEventsCompleted + 1 ∧
      (beforeSample b s).pixelCounter = s.pixelCounter ∧ (beforeSample b s).raster = s.raster :=
  speedProfile_sampleInputs .raster b (countEvent s)

/-- Sampling does not write the number of the event. -/
theorem afterSample_stepEventsCompleted (b : MotionBlock) (s : State) :
    (afterSample b s).stepEventsCompleted = s.stepEventsCompleted + 1 := by
  rw [afterSample, rasterSample_frame]
  exact (beforeSample_fields b s).1

/-- Phase B of the event, in the number `StepExit` gives it. -/
theorem blockPhase_beforeSample (b : MotionBlock) (s : State) :
    blockPhase b (beforeSample b s) = .cruise ↔
      b.accelerateUntil.toNat ≤ s.stepEventsCompleted + 1 ∧ s.stepEventsCompleted + 1 < b.decelerateAfter.toNat := by
  rw [blockPhase_eq_cruise_iff, (beforeSample_fields b s).1]

/-- The sample of the event, in what `StepExit` found. -/
theorem sampleDue_beforeSample (b : MotionBlock) (s : State) :
    SampleDue b (beforeSample b s) ↔
      (b.accelerateUntil.toNat ≤ s.stepEventsCompleted + 1 ∧ s.stepEventsCompleted + 1 < b.decelerateAfter.toNat) ∧
        b.pixelSteps.toNat ≤ s.pixelCounter + 1 := by
  obtain ⟨-, hpixel, -⟩ := beforeSample_fields b s
  rw [SampleDue, blockPhase_beforeSample, hpixel]

/-- The registers completion leaves as the sample left them. -/
theorem motionExit_raster_fields (b : MotionBlock) (s : State) :
    (motionExit .raster b s).pixelCounter = (afterSample b s).pixelCounter ∧
      (motionExit .raster b s).laserDuty = (afterSample b s).laserDuty :=
  completeIfDone_pixelCounter_laserDuty .raster b (afterSample b s)

/-- The last event leaves a suffix of the stream the sample left (R81). -/
theorem motionExit_raster_of_done (h : s.stepEventsCompleted + 1 = eventCount b) :
    (motionExit .raster b s).raster <:+ (afterSample b s).raster := by
  rw [motionExit_raster_eq]
  exact completeIfDone_raster_suffix ((afterSample_stepEventsCompleted b s).trans h)

/-- Any other event leaves the stream as the sample left it. -/
theorem motionExit_raster_of_not_done (h : s.stepEventsCompleted + 1 ≠ eventCount b) :
    (motionExit .raster b s).raster = (afterSample b s).raster := by
  rw [motionExit_raster_eq, completeIfDone_of_not_done ((afterSample_stepEventsCompleted b s).trans_ne h)]

/-- What a raster `StepExit` adds to the trace: entries of the speed profile, none a read of the stream, then those of
the sample, then on the last event the strobes of completion. -/
theorem newTrace_motionExit_raster {sample : List Obs}
    (h : (afterSample b s).trace = (beforeSample b s).trace ++ sample) :
    ∃ l, (∀ v, Obs.rasterRead v ∉ l) ∧
      newTrace s (motionExit .raster b s) =
        l ++ sample ++
          if s.stepEventsCompleted + 1 = eventCount b then [.plannerDiscardCurrentBlock, .serialConsumeData] else [] := by
  obtain ⟨l, hl, hno⟩ := speedProfile_trace_noRasterRead .raster b (countEvent s)
  have hbefore : (beforeSample b s).trace = s.trace ++ l := hl
  refine ⟨l, hno, ?_⟩
  rw [newTrace, motionExit_raster_eq, completeIfDone_raster_trace, afterSample_stepEventsCompleted, h, hbefore]
  simp only [List.append_assoc, List.drop_left]

/-- The last event strobes the drop of the rest of the stream (R228). -/
theorem serialConsumeData_mem_newTrace (h : s.stepEventsCompleted + 1 = eventCount b) :
    Obs.serialConsumeData ∈ newTrace s (motionExit .raster b s) := by
  obtain ⟨sample, hsample⟩ := rasterSample_trace b (beforeSample b s)
  obtain ⟨l, -, hnew⟩ := newTrace_motionExit_raster hsample
  rw [hnew, if_pos h]
  simp

/-- An event with a sample restarts the pixel counter and sets the intensity the byte read maps to, the read before the
write (R203, R204). -/
theorem motionExit_raster_of_sampled (h : SampleDue b (beforeSample b s)) :
    (motionExit .raster b s).pixelCounter = 0 ∧
      ∃ v, (s.raster = [] ∨ ∃ more, s.raster = v :: more) ∧
        (motionExit .raster b s).laserDuty = rasterMap v b.nominalLaserIntensity ∧
        [.rasterRead v, .laserDuty (motionExit .raster b s).laserDuty] <:+: newTrace s (motionExit .raster b s) := by
  obtain ⟨hpixel, hduty⟩ := motionExit_raster_fields b s
  have hafter : afterSample b s = takeSample b (beforeSample b s) := rasterSample_of_due h
  obtain ⟨hpixel', -, hduty'⟩ := takeSample_fields b (beforeSample b s)
  obtain ⟨l, -, hnew⟩ := newTrace_motionExit_raster (hafter ▸ takeSample_trace b (beforeSample b s))
  obtain ⟨-, -, hstream⟩ := beforeSample_fields b s
  have hhead := rasterByte_head (beforeSample b s)
  rw [hstream] at hhead
  rw [hpixel, hduty, hnew, hafter, hduty']
  exact ⟨hpixel', _, hhead, rfl, l, _, rfl⟩

/-- An event without one leaves the intensity to the speed profile and reads nothing (R200, R203). -/
theorem motionExit_raster_of_not_sampled (h : ¬SampleDue b (beforeSample b s)) :
    (motionExit .raster b s).laserDuty =
        (if (motionExit .raster b s).adjustedRate = s.adjustedRate then s.laserDuty else 0) ∧
      ∀ v, Obs.rasterRead v ∉ newTrace s (motionExit .raster b s) := by
  obtain ⟨hduty', -, htrace⟩ := rasterSample_of_not_due h
  obtain ⟨l, hno, hnew⟩ := newTrace_motionExit_raster (htrace.trans (List.append_nil _).symm)
  refine ⟨?_, fun v => ?_⟩
  · rw [(motionExit_raster_fields b s).2, (motionExit_phase .raster b s).1]
    exact hduty'.trans (speedProfile_raster_laserDuty b (countEvent s))
  · rw [hnew]
    split <;> simp [hno v]

/-- The pixel counter of an event without a sample advances in Phase B only (R203). -/
theorem motionExit_raster_pixelCounter (h : ¬SampleDue b (beforeSample b s)) :
    (motionExit .raster b s).pixelCounter =
      if blockPhase b (beforeSample b s) = .cruise then s.pixelCounter + 1 else s.pixelCounter := by
  obtain ⟨-, hpixel, -⟩ := beforeSample_fields b s
  rw [(motionExit_raster_fields b s).1, afterSample]
  split
  next hcruise => rw [rasterSample_of_counting hcruise h, hpixel]
  next hnot => rw [rasterSample_of_not_cruise hnot, hpixel]

/-- A sample takes one byte off the stream, if it holds one; without a sample it stays (R78). -/
theorem afterSample_raster (b : MotionBlock) (s : State) :
    (SampleDue b (beforeSample b s) → (afterSample b s).raster = s.raster.tail) ∧
      (¬SampleDue b (beforeSample b s) → (afterSample b s).raster = s.raster) := by
  obtain ⟨-, -, hstream⟩ := beforeSample_fields b s
  refine ⟨fun hdue => ?_, fun hnot => ?_⟩
  · obtain ⟨-, htail, -⟩ := takeSample_fields b (beforeSample b s)
    rw [afterSample, rasterSample_of_due hdue, htail, hstream]
  · obtain ⟨-, hkept, -⟩ := rasterSample_of_not_due hnot
    rw [afterSample, hkept, hstream]

end

/-- Settles O29: the pixel counter, the sample and the event without one, then the stream, which completion follows. -/
theorem rasterSamplingInCruise : Obligations.RasterSamplingInCruise := by
  intro b s hb hf hp n cruise sampled
  have hphase : blockPhase b (beforeSample b s) = .cruise ↔ cruise := blockPhase_beforeSample b s
  have hdue : SampleDue b (beforeSample b s) ↔ sampled := sampleDue_beforeSample b s
  obtain ⟨htail, hstream⟩ := afterSample_raster b s
  rw [hdue] at htail hstream
  have hexec : exec (.rasterLine b) s = .next (motionExit .raster b s) :=
    exec_exit_of_period (k := .raster) hb hf (by simp) hp
  refine ⟨motionExit .raster b s, hexec, fun hnot => ?_, fun hcruise hnot => ?_, fun hsampled => ?_, fun hnot => ?_,
    fun hsampled hmore => ?_, fun hnot hmore => ?_, fun hsampled hdone => ?_, fun hnot hdone => ?_,
    serialConsumeData_mem_newTrace⟩
  · rw [motionExit_raster_pixelCounter (mt hdue.1 fun hs => hnot hs.1), if_neg (mt hphase.1 hnot)]
  · rw [motionExit_raster_pixelCounter (mt hdue.1 hnot), if_pos (hphase.2 hcruise)]
  · obtain ⟨hpixel, v, hhead, hduty, htrace⟩ := motionExit_raster_of_sampled (hdue.2 hsampled)
    refine ⟨hpixel, v, hhead, ?_, htrace⟩
    rw [hduty, rasterMap_toNat]
  · exact motionExit_raster_of_not_sampled (mt hdue.1 hnot)
  · rw [motionExit_raster_of_not_done hmore, htail hsampled]
  · rw [motionExit_raster_of_not_done hmore, hstream hnot]
  · exact htail hsampled ▸ motionExit_raster_of_done hdone
  · exact hstream hnot ▸ motionExit_raster_of_done hdone

end Sys2Proof.Machine
end

section
/-! An invocation of the step timer up to its dispatch (R216, R219 to R223, R225): the dropped tick, the stop path, the
interlocks and limits of step 4, and what the dispatch comes to: a block to run, or the underrun. -/

namespace Sys2Proof.Machine

/-! ### The paths of an invocation -/

section
variable {s : State} {rest : List Event}

/-- A fire that finds `busy` clear is an invocation (R216). -/
theorem step_of_invocation (hf : FireNext s rest) (hb : s.busy = false) : step s = stepEnter (fired s rest) := by
  rw [step_of_fireNext hf, if_neg (Bool.eq_false_iff.1 hb)]

/-- A pending stop takes the invocation before it looks at anything else (R219). -/
theorem stepEnter_of_stop (hs : s.stopRequested = true) : stepEnter s = .next (takeStop s) := if_pos hs

/-- Without a stop a limit ends the invocation after the interlock cut (R220). -/
theorem stepEnter_of_limit {kind : StopStatus} (hs : s.stopRequested = false) (hl : limitHit s = some kind) :
    stepEnter s = .next (limitReturn kind (interlockCut s)) := by
  unfold stepEnter
  rw [if_neg (Bool.eq_false_iff.1 hs), hl]

/-- An invocation that no stop and no limit ends dispatches after steps 4 and 5 (R229). -/
theorem step_of_dispatch (hf : FireNext s rest) (hb : s.busy = false) (hs : s.stopRequested = false)
    (hl : limitHit s = none) : step s = dispatchBlock (beamStepPulse (interlockCut (fired s rest))) :=
  (step_of_invocation hf hb).trans (stepEnter_of_dispatch hs hl)

/-- Settles O11: `busy` drops the fire. -/
theorem droppedTickChangesNothing : Obligations.DroppedTickChangesNothing := by
  intro s rest hf hb
  rw [step_of_fireNext hf, if_pos hb]

/-- Settles O12: the stop path is one update. -/
theorem stopPathFlushesAndDisarms : Obligations.StopPathFlushesAndDisarms := by
  intro s rest hf hb hs
  have htaken : stepEnter (fired s rest) = .next (takeStop (fired s rest)) := stepEnter_of_stop hs
  rw [step_of_invocation hf hb, htaken, takeStop_eq]
  rfl

/-! ### Interlocks and limits (R220) -/

/-- The chain of tests of step 4 finds the first asserted limit of the list of R220. -/
theorem firstLimit_eq_requestedByLimits (i : Sense) : firstLimit i = requestedByLimits i := by
  obtain ⟨x1, x2, y1, y2, z1, z2, -, -⟩ := i
  cases x1
  · cases x2
    · cases y1
      · cases y2
        · cases z1
          · cases z2 <;> rfl
          · rfl
        · rfl
      · rfl
    · rfl
  · rfl

/-- With the interlocks compiled in the limits of the inputs are looked at (D29). -/
theorem limitHit_of_enabled (h : s.cfg.enableLaserInterlocks = true) : limitHit s = requestedByLimits s.sense :=
  (if_pos h).trans (firstLimit_eq_requestedByLimits s.sense)

/-- Without them none is. -/
theorem limitHit_of_disabled (h : s.cfg.enableLaserInterlocks = false) : limitHit s = none :=
  if_neg (Bool.eq_false_iff.1 h)

/-- With the interlocks compiled in the cut is made exactly if the door is open or the chiller off. -/
theorem interlockCut_of_enabled (h : s.cfg.enableLaserInterlocks = true) :
    interlockCut s =
      if s.sense.doorOpen = true ∨ s.sense.chillerOff = true then
        { s with laserDuty := 0, trace := s.trace ++ [.laserDuty 0] } else s := by
  split
  next hasserted => exact interlockCut_of_open (by simpa [interlockOpen, h] using hasserted)
  next hclear => exact if_neg (by simpa [interlockOpen, h] using hclear)

/-- Without them no cut is made. -/
theorem interlockCut_of_disabled (h : s.cfg.enableLaserInterlocks = false) : interlockCut s = s := by
  simp [interlockCut, interlockOpen, h]

/-- With no stop pending the limit return records the stop and strobes it (R220, R272). -/
theorem limitReturn_of_no_stop (kind : StopStatus) (h : s.stopRequested = false) :
    limitReturn kind s =
      { s with stopRequested := true, stopStatus := kind, busy := false, trace := s.trace ++ [.serialStop] } := by
  unfold limitReturn requestStop
  rw [if_neg (Bool.eq_false_iff.1 h)]
  rfl

/-- The cut leaves the stop flag. -/
theorem interlockCut_stopRequested (s : State) : (interlockCut s).stopRequested = s.stopRequested := by
  rw [(interlockCut_frame s).1]

end

/-- Settles O13: a limit returns with its stop recorded after the cut; without one the invocation dispatches after it;
and without the interlocks neither is looked at. -/
theorem interlocksAndLimitsOfStepFour : Obligations.InterlocksAndLimitsOfStepFour := by
  refine ⟨?limit, ?noLimit, ?disabled⟩
  case limit =>
    intro s rest kind hf hb hs he hl
    have hreturn : stepEnter (fired s rest) = .next (limitReturn kind (interlockCut (fired s rest))) :=
      stepEnter_of_limit hs ((limitHit_of_enabled he).trans hl)
    have hstop : (interlockCut (fired s rest)).stopRequested = false := (interlockCut_stopRequested _).trans hs
    have hcut := interlockCut_of_enabled (s := fired s rest) he
    rw [step_of_invocation hf hb, hreturn, limitReturn_of_no_stop kind hstop, hcut]
    by_cases hasserted : s.sense.doorOpen = true ∨ s.sense.chillerOff = true
    · simp [fired, hasserted]
    · simp [fired, hasserted]
  case noLimit =>
    intro s rest hf hb hs he hl
    rw [step_of_dispatch hf hb hs ((limitHit_of_enabled he).trans hl),
      interlockCut_of_enabled (s := fired s rest) he]
    rfl
  case disabled =>
    intro s rest hf hb hs he
    rw [step_of_dispatch hf hb hs (limitHit_of_disabled he), interlockCut_of_disabled (s := fired s rest) he]

/-! ### The dispatch (R222, R223, R225) -/

section
variable {s : State}

/-- Steps 4 and 5 leave what the dispatch looks at. -/
theorem preamble_dispatchInputs (s : State) :
    (beamStepPulse (interlockCut s)).currentBlock = s.currentBlock ∧
      (beamStepPulse (interlockCut s)).queue = s.queue ∧ (beamStepPulse (interlockCut s)).cfg = s.cfg := by
  rw [preamble_frame]
  exact ⟨rfl, rfl, rfl⟩

/-- A current block is run (R225). -/
theorem dispatchBlock_of_current {blk : Block} (hc : s.currentBlock = some blk) :
    dispatchBlock s = exec blk.toInstr s := by
  simp only [dispatchBlock, hc]

/-- With no block current and no record the dispatch underruns (R223). -/
theorem dispatchBlock_of_underrun (hc : s.currentBlock = none) (hq : s.queue = []) :
    dispatchBlock s = .next (underrun s) := by
  simp only [dispatchBlock, hc, blockPeek, hq, List.head?_nil]

/-- With no block current the head record is fetched (R222). -/
theorem dispatchBlock_of_fetch {record : List Byte} {more : List (List Byte)} {blk : Block}
    (hc : s.currentBlock = none) (hq : s.queue = record :: more) (hd : decodeBlock record = .ok blk) :
    dispatchBlock s = runFetched blk s := by
  simp only [dispatchBlock, hc, blockPeek, hq, List.head?_cons, hd]

/-- A fetched block the machine runs has its meaning (R113, R222). -/
theorem runFetched_of_runs {blk : Block} (h : Runs s.cfg blk) : runFetched blk s = exec blk.toInstr s := by
  simp only [runFetched, (blockRefusal_eq_none s.cfg blk).2 h]

/-- A strict machine refuses an ill-formed block where it fetches it (R113, U2; log 13). -/
theorem runFetched_of_illFormed {blk : Block} (hs : s.cfg.strict = true) (hw : blk.toInstr.wellFormed s.cfg = false) :
    runFetched blk s = .refused .illFormedBlock := by
  simp [runFetched, blockRefusal, hs, hw]

end

/-- Settles O6: the invocation comes to the fetch, and there the machine runs the block or refuses it. -/
theorem stepRunsTheFetchedBlock : Obligations.StepRunsTheFetchedBlock := by
  intro s rest record more blk hf hb hs hl hc hq hd
  obtain ⟨hcurrent, hqueue, hcfg⟩ := preamble_dispatchInputs (fired s rest)
  have hfetch : step s = runFetched blk (beamStepPulse (interlockCut (fired s rest))) :=
    (step_of_dispatch hf hb hs hl).trans (dispatchBlock_of_fetch (hcurrent.trans hc) (hqueue.trans hq) hd)
  rw [hfetch]
  refine ⟨fun hruns => runFetched_of_runs ?_, fun hstrict hw => runFetched_of_illFormed ?_ ?_⟩
  · rw [hcfg]
    exact hruns
  · rw [hcfg]
    exact hstrict
  · rw [hcfg]
    exact hw

/-- A motion block current while `busy` is set enables the `StepExit` (R215, R300). -/
theorem stepExitEnabled_of_current {s : State} {k : MotionKind} {b : MotionBlock} (hb : s.busy = true)
    (hc : s.currentBlock = some (k.block b)) : stepExitEnabled s = true := by
  rw [stepExitEnabled, hb, motionCurrent_of_currentBlock hc]
  rfl

/-- The `StepExit` of a current motion block runs it (R226). -/
theorem perform_stepExit {s : State} {k : MotionKind} {b : MotionBlock} (hb : s.busy = true)
    (hc : s.currentBlock = some (k.block b)) : perform .stepExit s = exec (k.block b).toInstr s := by
  simp only [perform, whenEnabled, stepExitEnabled_of_current hb hc, if_true, stepExit, hc]

/-- Settles O7: the dispatch of an invocation, and the `StepExit` the agenda orders. -/
theorem stepRunsTheCurrentBlock : Obligations.StepRunsTheCurrentBlock := by
  refine ⟨?fire, ?exit⟩
  case fire =>
    intro s rest blk hf hb hs hl hc
    obtain ⟨hcurrent, -, -⟩ := preamble_dispatchInputs (fired s rest)
    exact (step_of_dispatch hf hb hs hl).trans (dispatchBlock_of_current (hcurrent.trans hc))
  case exit =>
    intro s rest k b hi ha hb hc
    exact (step_of_agenda hi ha rfl).trans (perform_stepExit (s := { s with agenda := rest }) hb hc)

/-- Settles O14: the dispatch underruns, which is one update. -/
theorem underrunDisarms : Obligations.UnderrunDisarms := by
  intro s rest hf hb hs hl hc hq
  obtain ⟨hcurrent, hqueue, -⟩ := preamble_dispatchInputs (fired s rest)
  rw [step_of_dispatch hf hb hs hl, dispatchBlock_of_underrun (hcurrent.trans hc) (hqueue.trans hq), underrun_eq]

end Sys2Proof.Machine
end

section
/-! The assist blocks (R230, R233 to R238): each writes one output register, then ends as `finishAssist` says. -/

namespace Sys2Proof.Machine

/-- The air assist output, then the end of the block (R233, R234). -/
theorem finishAssist_controlAirAssist (v : Bool) (s : State) :
    finishAssist (controlAirAssist v s) =
      { s with
        airAssist := v, currentBlock := none, queue := s.queue.tail, busy := false
        trace := s.trace ++ [.airAssist v, .plannerDiscardCurrentBlock] } := by
  simp [finishAssist_eq, controlAirAssist, emit]

/-- The first auxiliary output, then the end of the block (R235, R236). -/
theorem finishAssist_controlAux1Assist (v : Bool) (s : State) :
    finishAssist (controlAux1Assist v s) =
      { s with
        aux1Assist := v, currentBlock := none, queue := s.queue.tail, busy := false
        trace := s.trace ++ [.aux1Assist v, .plannerDiscardCurrentBlock] } := by
  simp [finishAssist_eq, controlAux1Assist, emit]

/-- The second auxiliary output, then the end of the block (R237, R238). -/
theorem finishAssist_controlAux2Assist (v : Bool) (s : State) :
    finishAssist (controlAux2Assist v s) =
      { s with
        aux2Assist := v, currentBlock := none, queue := s.queue.tail, busy := false
        trace := s.trace ++ [.aux2Assist v, .plannerDiscardCurrentBlock] } := by
  simp [finishAssist_eq, controlAux2Assist, emit]

/-- Settles O32: the enabling and the disabling block of each of the three outputs. -/
theorem assistBlocksWriteTheirOutput : Obligations.AssistBlocksWriteTheirOutput := fun s =>
  ⟨congrArg _ (finishAssist_controlAirAssist true s), congrArg _ (finishAssist_controlAirAssist false s),
    congrArg _ (finishAssist_controlAux1Assist true s), congrArg _ (finishAssist_controlAux1Assist false s),
    congrArg _ (finishAssist_controlAux2Assist true s), congrArg _ (finishAssist_controlAux2Assist false s)⟩

end Sys2Proof.Machine
end

section
/-! A pending stop (R219, R274, R308, R340): of all the events only `stop_resume()` and `init()` clear it. -/

namespace Sys2Proof.Machine

/-- An invocation that finds a stop pending takes the stop path, which keeps the flag (R219). -/
theorem stepEnter_stopRequested {s t : State} (hs : s.stopRequested = true) (h : stepEnter s = .next t) :
    t.stopRequested = true := by
  rw [stepEnter_of_stop hs] at h
  cases h
  exact hs

/-- Of the host operations `stop_resume()` and `init()` alone clear the flag (R274, R340). -/
theorem HostEffect.stopRequested_or {s t : State} {i : Instr} (h : HostEffect s i t) (hs : s.stopRequested = true) :
    t.stopRequested = true ∨ i = .stopResume ∨ i = .init := by
  cases h with
  | init _ => exact .inr (.inr rfl)
  | stopResume => exact .inr (.inl rfl)
  | requestStop kind =>
    rw [(requestStop_frame kind s).1]
    exact .inl rfl
  | _ => exact .inl hs

/-- A homing iteration leaves the flag (R259). -/
theorem homingIteration_stopRequested (l : Homing) (s : State) :
    (homingIteration l s).stopRequested = s.stopRequested := by
  obtain ⟨-, e⟩ | ⟨-, -, e⟩ | ⟨-, -, e⟩ := homingIteration_cases l s
  · rw [e]
  · rw [e, startPass_eq]
  · rw [e]

/-- An event keeps a pending stop, or it is one of the two host operations. -/
theorem EventEffect.stopRequested_or {s t : State} {e : Event} (h : EventEffect s t e) (hs : s.stopRequested = true) :
    t.stopRequested = true ∨
      ∃ bytes i, e = .hostOp bytes ∧ decode .hostPort bytes = .ok i ∧ (i = .stopResume ∨ i = .init) := by
  cases h with
  | invocation _ _ _ ht => exact .inl (stepEnter_stopRequested (s := stampFire s) hs ht)
  | stepExit k b _ _ _ _ _ ht =>
    rw [ht, motionExit_frame]
    exact .inl hs
  | homingIter l _ ht =>
    rw [ht, homingIteration_stopRequested]
    exact .inl hs
  | hostOp bytes i hd _ _ ht =>
    obtain hkept | hclears := ht.stopRequested_or hs
    · exact .inl hkept
    · exact .inr ⟨bytes, i, rfl, hd, hclears⟩
  | droppedTick _ _ _ ht => exact .inl (ht ▸ hs)
  | pulseResetFire _ ht => exact .inl (ht ▸ hs)
  | beamResetFire _ ht => exact .inl (ht ▸ hs)
  | plannerPush _ _ ht => exact .inl (ht ▸ hs)
  | rasterPush _ ht => exact .inl (ht ▸ hs)
  | senseChange _ ht => exact .inl (ht ▸ hs)
  | clockAdvance _ ht => exact .inl (ht ▸ hs)

/-- A step keeps a pending stop, or takes one of the two host operations off the agenda. -/
theorem step_stopRequested_or {s t : State} (h : step s = .next t) (hs : s.stopRequested = true) :
    t.stopRequested = true ∨ ∃ bytes rest i, s.agenda = .hostOp bytes :: rest ∧ decode .hostPort bytes = .ok i ∧
      (i = .stopResume ∨ i = .init) := by
  obtain ⟨-, bytes, rest, ha, hd, -⟩ | ⟨-, e, rest, ha, -, he⟩ | ⟨-, e, ho, he⟩ | ⟨-, -, rfl⟩ := step_next h
  · exact .inr ⟨bytes, rest, .init, ha, hd, .inr rfl⟩
  · obtain hkept | ⟨bytes, i, rfl, hd, hclears⟩ := he.stopRequested_or hs
    · exact .inl hkept
    · exact .inr ⟨bytes, rest, i, ha, hd, hclears⟩
  · obtain hkept | ⟨bytes, -, rfl, -⟩ := he.stopRequested_or hs
    · exact .inl hkept
    · exact absurd ho (ownNextEvent_ne_hostOp s bytes)
  · exact .inl hs

/-- Settles O57: the two host operations have one encoding each (O2). -/
theorem onlyResumeOrInitClearsAStop : Obligations.OnlyResumeOrInitClearsAStop := by
  intro s t h hs ht
  obtain hkept | ⟨bytes, rest, i, ha, hd, hclears⟩ := step_stopRequested_or h hs
  · rw [ht] at hkept
    cases hkept
  · obtain ⟨rfl, -, -⟩ := encodeOfDecodedHostOperation bytes i hd
    obtain rfl | rfl := hclears
    · exact ⟨rest, .inl ha⟩
    · exact ⟨rest, .inr ha⟩

end Sys2Proof.Machine
end

section
/-! The `StepEnter` of a motion block (R171 to R174, R222, R224, R226): what the distributor does to each axis and to the
pins, and the registers block init leaves before it when the block is fetched. -/

namespace Sys2Proof.Machine

/-! ### The bits of the step vector (R30, R170) -/

/-- The step bit of an axis stands in the vector of the pulsing axes exactly if the axis pulses. -/
theorem stepBits_step (pulse : PerAxis Bool) (a : Axis) : (stepBits pulse).getLsbD a.index = pulse.get a := by
  obtain ⟨x, y, z⟩ := pulse
  cases a <;> revert x y z <;> decide

/-- No dir bit stands in it. -/
theorem stepBits_dir (pulse : PerAxis Bool) (a : Axis) : (stepBits pulse).getLsbD (3 + a.index) = false := by
  obtain ⟨x, y, z⟩ := pulse
  cases a <;> revert x y z <;> decide

/-- The step vector sets the step bit of a pulsing axis and leaves that of any other to the block (R171). -/
theorem stepVector_step (b : MotionBlock) (s : State) (a : Axis) :
    (stepVector b s).getLsbD a.index = (b.directionBits.getLsbD a.index || (pulsingAxes b s).get a) := by
  rw [stepVector, BitVec.getLsbD_or, stepBits_step]

/-- The step vector has the dir bits of the block (R170). -/
theorem stepVector_dir (b : MotionBlock) (s : State) (a : Axis) :
    (stepVector b s).getLsbD (3 + a.index) = dirNegative b.directionBits a := by
  rw [stepVector, BitVec.getLsbD_or, stepBits_dir, Bool.or_false, dirNegative]

/-! ### The distributor (R171 to R174) -/

/-- XORed with the invert mask `out_bits` is the step vector (R172). -/
theorem bresenhamStep_outBits (b : MotionBlock) (s : State) :
    (bresenhamStep b s).outBits ^^^ s.cfg.invertMask = stepVector b s := by
  rw [bresenhamStep_eq, BitVec.xor_assoc, BitVec.xor_self, BitVec.xor_zero]

/-- An axis pulses exactly if the sum is positive (R171). -/
theorem pulsingAxes_get (b : MotionBlock) (s : State) (a : Axis) :
    (pulsingAxes b s).get a = decide (0 < s.counter.get a + (steps b).get a) := get_ofFn _ a

/-- The distributor steps every axis from its accumulator. -/
theorem bresenhamStep_axisStepped (b : MotionBlock) (s : State) (a : Axis) :
    AxisStepped b a (s.counter.get a) s (bresenhamStep b s) := by
  unfold AxisStepped
  rw [bresenhamStep_outBits, stepVector_step, stepVector_dir, pulsingAxes_get, bresenhamStep_eq]
  simp only [distribute, get_ofFn, pulsingAxes_get, axisCounter, axisPulse, axisPosition]
  by_cases hpulse : 0 < s.counter.get a + (steps b).get a
  · cases dirNegative b.directionBits a
    · simp [hpulse]
    · simp [hpulse, Int.sub_eq_add_neg]
  · simp [hpulse]

/-- The distributor drives the vector it leaves in `out_bits` in the order of R173 and arms the pulse shaper
(R87). -/
theorem bresenhamStep_pins (b : MotionBlock) (s : State) :
    (bresenhamStep b s).dirPin = dirPart (bresenhamStep b s).outBits ∧
      (bresenhamStep b s).stepPin = stepPart (bresenhamStep b s).outBits ∧ (bresenhamStep b s).pulseArmed = true ∧
      (bresenhamStep b s).pulseDeadline = s.now + pulseCycles s.cfg ∧
      (bresenhamStep b s).trace =
        s.trace ++ [.dirPin (bresenhamStep b s).dirPin, .stepPin (bresenhamStep b s).stepPin, .armPulse] := by
  rw [bresenhamStep_eq]
  exact ⟨rfl, rfl, rfl, rfl, rfl⟩

/-! ### A current block (R226) -/

/-- With `busy = 0` a motion block runs the end of its `StepEnter` (R226). -/
theorem exec_enter {k : MotionKind} {b : MotionBlock} {s : State} (hb : s.busy = false) (hd : Dimmable k b) :
    exec (k.block b).toInstr s = goOn (motionEnter k b s) := by
  rw [exec_motion hd, motionStep_enter hb]

/-- Settles O25: the distributor steps from the accumulators as they stand and leaves the step timer alone. -/
theorem currentMotionBlockMakesItsNextStepEvent : Obligations.CurrentMotionBlockMakesItsNextStepEvent := by
  intro k b s hb hc hd
  have henter : motionEnter k b s = { bresenhamStep b s with busy := true } :=
    motionEnter_of_current (by rw [hc]; rfl)
  have hceiling : (bresenhamStep b s).stepCeiling = s.stepCeiling := by rw [bresenhamStep_eq]
  rw [exec_enter hb hd, henter]
  refine ⟨fun hzero => goOn_of_zero (hceiling.trans hzero), fun hperiod => ?_⟩
  obtain ⟨hdir, hstep, harmed, hdeadline, htrace⟩ := bresenhamStep_pins b s
  refine ⟨_, goOn_of_period (mt hceiling.symm.trans hperiod), rfl, bresenhamStep_axisStepped b s, hdir, hstep, harmed,
    hdeadline, htrace, ?_⟩
  rw [bresenhamStep_eq]

/-! ### A fetched block (R222, R224) -/

/-- Block init over the fetch as one update (R222, R224). -/
theorem enterBlock_eq_of_fetch {k : MotionKind} {b : MotionBlock} {s : State} (hc : s.currentBlock = none) :
    enterBlock k b s =
      { s with
        currentBlock := some (k.block b), adjustedRate := b.initialRate.toNat, accCounter := cpatHalf s.cfg
        stepPrescaler := (selectPrescaler (rateToCycles s.cfg b.initialRate.toNat)).1
        stepCeiling := (selectPrescaler (rateToCycles s.cfg b.initialRate.toNat)).2
        cyclesPerStepEvent := achievedPeriod (rateToCycles s.cfg b.initialRate.toNat)
        counter := PerAxis.all (-((eventCount b / 2 : Nat) : Int)), stepEventsCompleted := 0, pixelCounter := 0
        laserDuty := refreshedIntensity k b { s with adjustedRate := b.initialRate.toNat }
        trace := s.trace ++
          [.stepTimer (selectPrescaler (rateToCycles s.cfg b.initialRate.toNat)).1
              (selectPrescaler (rateToCycles s.cfg b.initialRate.toNat)).2,
            .laserDuty (refreshedIntensity k b { s with adjustedRate := b.initialRate.toNat })] } := by
  rw [enterBlock_of_fetch hc, motionBlockInit, refreshDimming_eq, setStepRate_eq]
  simp only [List.append_assoc]
  rfl

/-- The same value is read on every axis. -/
theorem get_all {α : Type} (v : α) (a : Axis) : (PerAxis.all v).get a = v := by cases a <;> rfl

section
variable {k : MotionKind} {b : MotionBlock} {s : State}

/-- The `StepEnter` of a block it fetches steps every axis from the midpoint seed of block init (R224, R171). -/
theorem motionEnter_axisStepped_of_fetch (hc : s.currentBlock = none) (a : Axis) :
    AxisStepped b a (-((b.stepEventCount.toNat / 2 : Nat) : Int)) s (motionEnter k b s) := by
  have hstepped := bresenhamStep_axisStepped b (enterBlock k b s) a
  rw [enterBlock_eq_of_fetch hc, get_all] at hstepped
  rw [motionEnter, enterBlock_eq_of_fetch hc]
  exact hstepped

/-- It leaves the registers of block init, which the distributor does not write (R224). -/
theorem motionEnter_initialised_of_fetch (hc : s.currentBlock = none) :
    (motionEnter k b s).currentBlock = some (k.block b) ∧ (motionEnter k b s).stepEventsCompleted = 0 ∧
      (motionEnter k b s).pixelCounter = 0 ∧ (motionEnter k b s).adjustedRate = b.initialRate.toNat ∧
      (motionEnter k b s).accCounter = cpatHalf s.cfg ∧
      ((motionEnter k b s).stepPrescaler, (motionEnter k b s).stepCeiling) =
        selectPrescaler (rateToCycles s.cfg b.initialRate.toNat) ∧
      (motionEnter k b s).cyclesPerStepEvent =
        period (motionEnter k b s).stepPrescaler (motionEnter k b s).stepCeiling ∧
      (motionEnter k b s).laserDuty = refreshedIntensity k b { s with adjustedRate := b.initialRate.toNat } := by
  rw [motionEnter, bresenhamStep_eq, enterBlock_eq_of_fetch hc]
  exact ⟨rfl, rfl, rfl, rfl, rfl, rfl, rfl, rfl⟩

/-- It leaves the step timer a period exactly if the initial rate has one (R136). -/
theorem motionEnter_ceiling_ne_zero_of_fetch (hc : s.currentBlock = none) :
    (motionEnter k b s).stepCeiling ≠ 0 ↔ HasPeriod s.cfg b.initialRate.toNat := by
  obtain ⟨-, -, -, -, -, htimer, -⟩ := motionEnter_initialised_of_fetch (k := k) (b := b) hc
  have hceiling : (motionEnter k b s).stepCeiling = (selectPrescaler (rateToCycles s.cfg b.initialRate.toNat)).2 :=
    congrArg Prod.snd htimer
  rw [hceiling]
  exact not_congr (selectPrescaler_ceiling_eq_zero _)

/-- It drives the pins of the vector it leaves in `out_bits` and arms the pulse shaper (R173). -/
theorem motionEnter_pins_of_fetch (hc : s.currentBlock = none) :
    (motionEnter k b s).dirPin = dirPart (motionEnter k b s).outBits ∧
      (motionEnter k b s).stepPin = stepPart (motionEnter k b s).outBits ∧ (motionEnter k b s).pulseArmed = true ∧
      (motionEnter k b s).pulseDeadline = s.now + pulseCycles s.cfg := by
  obtain ⟨hdir, hstep, harmed, hdeadline, -⟩ := bresenhamStep_pins b (enterBlock k b s)
  refine ⟨hdir, hstep, harmed, hdeadline.trans ?_⟩
  rw [enterBlock_eq_of_fetch hc]

/-- It adds the timer and the dimming of block init to the trace, then what the distributor drives (R49, R87). -/
theorem motionEnter_trace_of_fetch (hc : s.currentBlock = none) :
    (motionEnter k b s).trace =
      s.trace ++
        [.stepTimer (motionEnter k b s).stepPrescaler (motionEnter k b s).stepCeiling,
          .laserDuty (motionEnter k b s).laserDuty, .dirPin (motionEnter k b s).dirPin,
          .stepPin (motionEnter k b s).stepPin, .armPulse] := by
  rw [motionEnter, bresenhamStep_eq, enterBlock_eq_of_fetch hc]
  exact List.append_assoc _ _ _

end

/-- Settles O24: the two refusals, then the registers of block init and the distributor's step event. -/
theorem fetchedMotionBlockMakesItsFirstStepEvent : Obligations.FetchedMotionBlockMakesItsFirstStepEvent := by
  refine ⟨fun b s hz => exec_line_of_zero hz s, fun k b s hb hc hd hp => ?noPeriod, fun k b s hb hc hd hp => ?fetched⟩
  case noPeriod =>
    rw [exec_enter hb hd]
    exact goOn_of_zero (not_not.1 (mt (motionEnter_ceiling_ne_zero_of_fetch hc).1 hp))
  case fetched =>
    have hexec : exec (k.block b).toInstr s = .next (motionEnter k b s) :=
      (exec_enter hb hd).trans (goOn_of_period ((motionEnter_ceiling_ne_zero_of_fetch hc).2 hp))
    obtain ⟨hcurrent, hcompleted, hpixel, hrate, hacc, htimer, hcycles, hduty⟩ :=
      motionEnter_initialised_of_fetch (k := k) (b := b) hc
    obtain ⟨hdir, hstep, harmed, hdeadline⟩ := motionEnter_pins_of_fetch (k := k) (b := b) hc
    refine ⟨motionEnter k b s, hexec, hcurrent, rfl, hcompleted, hpixel, hrate, hacc, htimer, hcycles, ?_,
      motionEnter_axisStepped_of_fetch hc, hdir, hstep, harmed, hdeadline, motionEnter_trace_of_fetch hc, ?_⟩
    · rw [hduty]
      cases k <;> rfl
    · rw [motionEnter, bresenhamStep_eq, enterBlock_eq_of_fetch hc]

end Sys2Proof.Machine
end

section
/-! The `StepExit` of a motion block (R226, R228, R49): the step count and the completion, what it adds to the trace part
by part, and the step event that cannot be counted (U11). -/

namespace Sys2Proof.Machine

section
variable (k : MotionKind) (b : MotionBlock) (s : State)

/-! ### The trace of each part (R49) -/

/-- The speed profile adds the timer and the dimming if the rate changes, and nothing otherwise (R158, R200). -/
theorem speedProfile_trace :
    (speedProfile k b s).trace =
      s.trace ++
        if (speedProfile k b s).adjustedRate = s.adjustedRate then [] else
          [.stepTimer (speedProfile k b s).stepPrescaler (speedProfile k b s).stepCeiling,
            .laserDuty (refreshedIntensity k b { s with adjustedRate := (speedProfile k b s).adjustedRate })] := by
  by_cases hkept : (runPhase b s).adjustedRate = s.adjustedRate
  · rw [speedProfile_of_kept k hkept, if_pos hkept, runPhase_frame, List.append_nil]
  · rw [speedProfile_of_changed k rfl hkept, if_neg hkept]
    exact List.append_assoc _ _ _

/-- A sample is due in Phase B, at the `pixel_steps`-th event there, in the numbers of the event (R203). -/
theorem sampleDue_iff :
    SampleDue b s ↔ b.accelerateUntil.toNat ≤ s.stepEventsCompleted ∧
      s.stepEventsCompleted < b.decelerateAfter.toNat ∧ b.pixelSteps.toNat ≤ s.pixelCounter + 1 := by
  rw [SampleDue, blockPhase_eq_cruise_iff, and_assoc]

/-- The raster sample of a `RASTER_LINE` adds its read and its intensity if it is due; a `LINE` takes none (R203,
R226). -/
theorem sampleIfRaster_trace :
    (sampleIfRaster k b s).trace =
      s.trace ++
        if k = .raster ∧ b.accelerateUntil.toNat ≤ s.stepEventsCompleted ∧
            s.stepEventsCompleted < b.decelerateAfter.toNat ∧ b.pixelSteps.toNat ≤ s.pixelCounter + 1 then
          [.rasterRead (rasterByte s), .laserDuty (sampleIfRaster k b s).laserDuty] else [] := by
  cases k with
  | line => simp [sampleIfRaster]
  | raster =>
    rw [sampleIfRaster]
    split
    next hsampled =>
      rw [rasterSample_of_due ((sampleDue_iff b s).2 hsampled.2)]
      exact takeSample_trace b s
    next hnot =>
      obtain ⟨-, -, htrace⟩ := rasterSample_of_not_due fun hdue => hnot ⟨rfl, (sampleDue_iff b s).1 hdue⟩
      rw [htrace, List.append_nil]

/-- Completion adds the discard strobe, and for a `RASTER_LINE` the one that drops the rest of the stream (R228). -/
theorem completeIfDone_trace :
    (completeIfDone k b s).trace =
      s.trace ++
        if s.stepEventsCompleted = eventCount b then
          .plannerDiscardCurrentBlock :: (if k = .line then [] else [.serialConsumeData]) else [] := by
  cases k with
  | line =>
    split
    next hdone =>
      rw [completeIfDone, if_pos hdone]
      rfl
    next hnot => rw [completeIfDone_of_not_done hnot, List.append_nil]
  | raster => exact completeIfDone_raster_trace b s

/-! ### The whole `StepExit` -/

/-- For either kind of block sampling finds the event counted, the pixel counter and the stream unchanged. -/
theorem speedProfile_countEvent_fields :
    (speedProfile k b (countEvent s)).stepEventsCompleted = s.stepEventsCompleted + 1 ∧
      (speedProfile k b (countEvent s)).pixelCounter = s.pixelCounter ∧
      (speedProfile k b (countEvent s)).raster = s.raster :=
  speedProfile_sampleInputs k b (countEvent s)

/-- The trace of a `StepExit` is what its three parts add, in their order, in the registers it leaves (R226, R49). -/
theorem motionExit_trace :
    (motionExit k b s).trace =
      s.trace ++
        (if (motionExit k b s).adjustedRate = s.adjustedRate then [] else
          [.stepTimer (motionExit k b s).stepPrescaler (motionExit k b s).stepCeiling,
            .laserDuty (refreshedIntensity k b { s with adjustedRate := (motionExit k b s).adjustedRate })]) ++
        (if k = .raster ∧ b.accelerateUntil.toNat ≤ s.stepEventsCompleted + 1 ∧
            s.stepEventsCompleted + 1 < b.decelerateAfter.toNat ∧ b.pixelSteps.toNat ≤ s.pixelCounter + 1 then
          [.rasterRead (rasterByte (speedProfile k b (countEvent s))), .laserDuty (motionExit k b s).laserDuty]
          else []) ++
        (if s.stepEventsCompleted + 1 = eventCount b then
          .plannerDiscardCurrentBlock :: (if k = .line then [] else [.serialConsumeData]) else []) := by
  obtain ⟨hcount, hpixel, -⟩ := speedProfile_countEvent_fields k b s
  obtain ⟨hprescaler, hceiling, -⟩ := motionExit_timer k b s
  have hrate : (motionExit k b s).adjustedRate = (speedProfile k b (countEvent s)).adjustedRate := by
    rw [(motionExit_phase k b s).1, speedProfile_frame]
  have hduty : (motionExit k b s).laserDuty = (sampleIfRaster k b (speedProfile k b (countEvent s))).laserDuty :=
    (completeIfDone_pixelCounter_laserDuty k b _).2
  have hsampled : (sampleIfRaster k b (speedProfile k b (countEvent s))).stepEventsCompleted =
      s.stepEventsCompleted + 1 := by
    rw [sampleIfRaster_frame]
    exact hcount
  have hcompleted := completeIfDone_trace k b (sampleIfRaster k b (speedProfile k b (countEvent s)))
  rw [hsampled, sampleIfRaster_trace, hcount, hpixel, speedProfile_trace] at hcompleted
  rw [hprescaler, hceiling, hrate, hduty]
  exact hcompleted

/-- It counts the event, and the block goes with the last one (R226, R228). -/
theorem motionExit_completion :
    (motionExit k b s).busy = false ∧ (motionExit k b s).stepEventsCompleted = s.stepEventsCompleted + 1 ∧
      (motionExit k b s).currentBlock =
        (if s.stepEventsCompleted + 1 = eventCount b then none else s.currentBlock) ∧
      (motionExit k b s).queue = if s.stepEventsCompleted + 1 = eventCount b then s.queue.tail else s.queue := by
  rw [motionExit_frame]
  exact ⟨rfl, rfl, rfl, rfl⟩

/-- The completion of a `LINE` leaves the raster stream, and so the pixel counter and the free draws (R228). -/
theorem completeIfDone_line_stream :
    (completeIfDone .line b s).raster = s.raster ∧ (completeIfDone .line b s).pixelCounter = s.pixelCounter ∧
      (completeIfDone .line b s).freeDraws = s.freeDraws := by
  unfold completeIfDone
  split
  · exact ⟨rfl, rfl, rfl⟩
  · exact ⟨rfl, rfl, rfl⟩

/-- The `StepExit` of a `LINE` leaves them: it takes no sample (R226). -/
theorem motionExit_line_stream :
    (motionExit .line b s).raster = s.raster ∧ (motionExit .line b s).pixelCounter = s.pixelCounter ∧
      (motionExit .line b s).freeDraws = s.freeDraws := by
  have hexit := completeIfDone_line_stream b (speedProfile .line b (countEvent s))
  rw [speedProfile_frame] at hexit
  unfold motionExit sampleIfRaster
  rw [speedProfile_frame]
  exact hexit

/-- The intensity of a dimming refresh, by the kind of the block (R200). -/
theorem refreshedIntensity_eq :
    refreshedIntensity k b s =
      if k = .line then dim s.cfg s.adjustedRate b.nominalLaserIntensity b.nominalRate.toNat else 0 := by
  cases k <;> rfl

end

/-- A step event that cannot be counted is refused (R352, U11). -/
theorem exec_exit_of_overflow {k : MotionKind} {b : MotionBlock} {s : State} (hb : s.busy = true)
    (hf : ¬CountFits s) (hd : Dimmable k b) : exec (k.block b).toInstr s = .refused .stepCountOverflow := by
  rw [exec_motion hd, motionStep_overflow hb hf]

/-- Settles O26: the refusal of the event that cannot be counted, then the count, the completion and the trace. -/
theorem stepExitCountsAndCompletes : Obligations.StepExitCountsAndCompletes := by
  refine ⟨fun k b s hb hd hover => exec_exit_of_overflow hb ?_ hd, fun k b s hb hf hd hp => ?_⟩
  · unfold CountFits
    omega
  · intro n sampled
    obtain ⟨hbusy, hcount, hcurrent, hqueue⟩ := motionExit_completion k b s
    have htrace := motionExit_trace k b s
    rw [refreshedIntensity_eq] at htrace
    refine ⟨motionExit k b s, exec_exit_of_period hb hf hd hp, hbusy, hcount, fun hlast => ?_, fun hmore => ?_, ?_,
      ⟨rasterByte (speedProfile k b (countEvent s)), fun head more hstream => ?_, htrace⟩, ?_⟩
    · exact ⟨hcurrent.trans (if_pos hlast), hqueue.trans (if_pos hlast)⟩
    · exact ⟨hcurrent.trans (if_neg hmore), hqueue.trans (if_neg hmore)⟩
    · rintro rfl
      exact motionExit_line_stream b s
    · obtain ⟨-, -, hkept⟩ := speedProfile_countEvent_fields k b s
      rw [rasterByte, hkept, hstream]
    · rw [motionExit_frame]

end Sys2Proof.Machine
end

section
/-! The Homing Controller (R255 to R264): the call that starts the approach pass, one iteration of the loop, and the
overshoot of an axis past its end-stop. -/

namespace Sys2Proof.Machine

/-! ### What the check of an iteration reads -/

/-- The limit bit of every axis is one of the six an iteration reads (R257). -/
theorem homingLimitBit_lt {c : Config} (hv : c.Valid) (a : Axis) : c.homingLimitBit.get a < 6 := by
  obtain ⟨-, -, -, -, -, -, -, -, ⟨⟨hx, hy, hz⟩, -⟩, -⟩ := hv
  cases a
  · exact Nat.lt_succ_of_le hx
  · exact Nat.lt_succ_of_le hy
  · exact Nat.lt_succ_of_le hz

/-- A limit bit as the pass reads it: asserted in the approach pass, clear in the retract pass (R259). -/
theorem homingLimits_iff (reverse : Bool) (s : State) {i : Nat} (hi : i < 6) :
    (homingLimits reverse s).getLsbD i = true ↔ (readLimitBits s.sense).getLsbD i = !reverse := by
  cases reverse <;> simp [homingLimits, hi]

/-- The end-stop of an axis is seen if the axis is still homing and its input has the level of the pass (R259). -/
theorem endStopSeen_iff {h : Homing} {s : State} {a : Axis} (hv : s.cfg.Valid) :
    endStopSeen h s a = true ↔ h.active.getLsbD a.index = true ∧
      (readLimitBits s.sense).getLsbD (s.cfg.homingLimitBit.get a) = !h.reverse := by
  rw [endStopSeen, Bool.and_eq_true, homingLimits_iff h.reverse s (homingLimitBit_lt hv a)]

/-- Three bits are zero if they are clear for each axis. -/
theorem axes3_eq_zero_iff (v : Axes3) : v = 0 ↔ ∀ a : Axis, v.getLsbD a.index = false := by
  have hbits : ∀ w : Axes3, w.getLsbD 0 = false → w.getLsbD 1 = false → w.getLsbD 2 = false → w = 0 := by decide
  refine ⟨?_, fun hclear => hbits v (hclear .x) (hclear .y) (hclear .z)⟩
  rintro rfl a
  exact BitVec.getLsbD_zero

section
variable (h : Homing) (s : State) (a : Axis)

/-- An axis goes on unless its end-stop is seen with no allowance left (R259). -/
theorem stillActive_iff :
    stillActive h s a = true ↔
      h.active.getLsbD a.index = true ∧ ¬(endStopSeen h s a = true ∧ h.allowance.get a = 0) := by
  simp [stillActive, imp_iff_not_or]

/-- The allowance after the check, with subtraction stopping at 0: "test, then decrement" (R259, C4). -/
theorem homingCheck_allowance :
    (homingCheck h s).allowance.get a =
      if endStopSeen h s a = true then h.allowance.get a - 1 else h.allowance.get a := by
  have hget : (homingCheck h s).allowance.get a = nextAllowance h s a := by cases a <;> rfl
  rw [hget, nextAllowance]
  cases endStopSeen h s a with
  | false => rfl
  | true => by_cases h0 : h.allowance.get a = 0 <;> simp [h0]

/-- The check leaves some axis active exactly if one goes on. -/
theorem homingCheck_active_ne_zero_iff :
    (homingCheck h s).active ≠ 0 ↔ ∃ a, stillActive h s a = true := by
  simp only [ne_eq, axes3_eq_zero_iff, homingCheck_active, not_forall, Bool.not_eq_false]

end

/-! ### What an iteration does -/

section
variable {h : Homing} {s : State}

/-- With an axis left the iteration pulses (R259). -/
theorem homingIteration_of_active (ha : ∃ a, stillActive h s a = true) :
    homingIteration h s =
      { s with
        homing := some { homingCheck h s with
          resumeAt := s.now + (pulseCycles s.cfg + homingWaitCycles s.cfg) }
        stepPin := stepPart s.cfg.invertMask
        trace := s.trace ++
          [.stepPin ((homingCheck h s).active ^^^ stepPart s.cfg.invertMask),
            .stepPin (stepPart s.cfg.invertMask)] } := by
  have hne := (homingCheck_active_ne_zero_iff h s).2 ha
  obtain ⟨-, e⟩ | ⟨h0, -⟩ | ⟨h0, -⟩ := homingIteration_cases h s
  · exact e
  · exact absurd h0 hne
  · exact absurd h0 hne

/-- With none left the approach pass goes over to the retract pass (R256). -/
theorem homingIteration_of_approachEnd (ha : ¬∃ a, stillActive h s a = true) (hr : h.reverse = false) :
    homingIteration h s = startPass true s := by
  obtain ⟨hne, -⟩ | ⟨-, -, e⟩ | ⟨-, hr', -⟩ := homingIteration_cases h s
  · exact absurd ((homingCheck_active_ne_zero_iff h s).1 hne) ha
  · exact e
  · cases hr.symm.trans hr'

/-- With none left the retract pass ends the operation and zeroes the position (R256, R263). -/
theorem homingIteration_of_retractEnd (ha : ¬∃ a, stillActive h s a = true) (hr : h.reverse = true) :
    homingIteration h s = { s with position := ⟨0, 0, 0⟩, homing := none } := by
  obtain ⟨hne, -⟩ | ⟨-, hr', -⟩ | ⟨-, -, e⟩ := homingIteration_cases h s
  · exact absurd ((homingCheck_active_ne_zero_iff h s).1 hne) ha
  · cases hr.symm.trans hr'
  · exact e

end

/-- The state an iteration of the locals `h` starts from: its event is off the agenda, the waits have ended. -/
def iterationStart (h : Homing) (rest : List Event) (s : State) : State :=
  { s with agenda := rest, now := max s.now h.resumeAt }

/-- A homing iteration that is ordered next is that of the locals (R259, R313). -/
theorem step_of_homingIter {h : Homing} {s : State} {rest : List Event} (hi : s.initialised = true)
    (ha : s.agenda = .homingIter :: rest) (hh : s.homing = some h) :
    step s = .next (homingIteration h (iterationStart h rest s)) := by
  rw [step_of_agenda hi ha rfl]
  simp only [perform, homingIter, advanceTo, dueTime, hh, iterationStart]

/-! ### The overshoot (R260) -/

/-- What a step appended to the trace is new in it. -/
theorem newTrace_of_append {s t : State} {l : List Obs} (h : t.trace = s.trace ++ l) : newTrace s t = l := by
  rw [newTrace, h, List.drop_left]

/-- Axis `a` is homing in the pass `reverse` with `left` of its allowance. -/
structure HasAllowance (reverse : Bool) (a : Axis) (left : Nat) (h : Homing) : Prop where
  reverse : h.reverse = reverse
  active : h.active.getLsbD a.index = true
  allowance : h.allowance.get a = left

section
variable {reverse : Bool} {a : Axis} {h : Homing} {s : State}

/-- An axis whose end-stop is seen with some allowance left is pulsed, and has one less (R259, R260). -/
theorem homingIteration_pulses_of_allowance {left : Nat} (hh : HasAllowance reverse a left h) (hpos : 0 < left)
    (hseen : endStopSeen h s a = true) :
    (∃ h', (homingIteration h s).homing = some h' ∧ HasAllowance reverse a (left - 1) h') ∧
      ∃ v, newTrace s (homingIteration h s) = [.stepPin v, .stepPin (stepPart s.cfg.invertMask)] ∧
        v.getLsbD a.index = !(stepPart s.cfg.invertMask).getLsbD a.index := by
  have hstays : stillActive h s a = true := by
    rw [stillActive_iff, hh.allowance]
    exact ⟨hh.active, fun ⟨_, h0⟩ => hpos.ne' h0⟩
  have hactive : (homingCheck h s).active.getLsbD a.index = true := by rw [homingCheck_active, hstays]
  have hleft : (homingCheck h s).allowance.get a = left - 1 := by
    rw [homingCheck_allowance, if_pos hseen, hh.allowance]
  rw [homingIteration_of_active ⟨a, hstays⟩]
  refine ⟨⟨_, rfl, hh.reverse, hactive, hleft⟩, _, newTrace_of_append rfl, ?_⟩
  rw [BitVec.getLsbD_xor, hactive, Bool.true_xor]

/-- With none left it is masked out: the iteration writes it no level but the idle one, and it is not active for the
rest of the pass (R259, R260). -/
theorem homingIteration_masks_of_no_allowance (hh : HasAllowance reverse a 0 h) (hseen : endStopSeen h s a = true) :
    (∀ v, Obs.stepPin v ∈ newTrace s (homingIteration h s) →
      v.getLsbD a.index = (stepPart s.cfg.invertMask).getLsbD a.index) ∧
    ∀ h', (homingIteration h s).homing = some h' → h'.reverse = reverse → h'.active.getLsbD a.index = false := by
  have hmasked : (homingCheck h s).active.getLsbD a.index = false := by
    rw [homingCheck_active, Bool.eq_false_iff, ne_eq, stillActive_iff]
    exact fun ⟨_, hgoes⟩ => hgoes ⟨hseen, hh.allowance⟩
  obtain ⟨-, hpulses⟩ | ⟨-, happroach, hends⟩ | ⟨-, -, hends⟩ := homingIteration_cases h s
  · rw [hpulses]
    refine ⟨fun v hv => ?_, fun h' heq _ => ?_⟩
    · rw [newTrace_of_append rfl] at hv
      simp only [List.mem_cons, Obs.stepPin.injEq, List.not_mem_nil, or_false] at hv
      obtain rfl | rfl := hv
      · rw [BitVec.getLsbD_xor, hmasked, Bool.false_xor]
      · rfl
    · cases heq
      exact hmasked
  · rw [hends]
    refine ⟨fun v hv => ?_, fun h' heq hsame => ?_⟩
    · simp [newTrace, startPass_eq] at hv
    · cases heq
      cases happroach.symm.trans (hh.reverse.trans hsame.symm)
  · rw [hends]
    refine ⟨fun v hv => ?_, fun h' heq _ => ?_⟩
    · simp [newTrace] at hv
    · cases heq

end

/-- The seven iterations of R260: axis `a` has the full allowance at the first, and each finds its end-stop asserted;
between them the environment changes neither the locals nor the parameters. -/
structure OvershootRun (s t : Nat → State) (h : Nat → Homing) (rest : Nat → List Event) (a : Axis) : Prop where
  valid : (s 0).cfg.Valid
  locals : ∀ n, n < 7 → (s n).homing = some (h n)
  iteration : ∀ n, n < 7 → t n = homingIteration (h n) (iterationStart (h n) (rest n) (s n))
  nextLocals : ∀ n, n < 6 → (s (n + 1)).homing = (t n).homing
  nextCfg : ∀ n, n < 6 → (s (n + 1)).cfg = (t n).cfg
  first : HasAllowance (h 0).reverse a 6 (h 0)
  asserted : ∀ n, n < 7 → (readLimitBits (s n).sense).getLsbD ((s 0).cfg.homingLimitBit.get a) = !(h 0).reverse

namespace OvershootRun
variable {s t : Nat → State} {h : Nat → Homing} {rest : Nat → List Event} {a : Axis}

/-- The parameters are those of the first iteration (R8). -/
theorem cfg_eq (run : OvershootRun s t h rest a) : ∀ n, n < 7 → (s n).cfg = (s 0).cfg
  | 0, _ => rfl
  | n + 1, hn =>
    calc (s (n + 1)).cfg
      _ = (t n).cfg := run.nextCfg n (by omega)
      _ = (s n).cfg := by
        rw [run.iteration n (by omega)]
        exact (homingIteration_keepsParametersAndInputs _ _).cfg
      _ = (s 0).cfg := run.cfg_eq n (by omega)

/-- The end-stop of an axis still homing in the same pass is seen. -/
theorem endStopSeen_of_hasAllowance (run : OvershootRun s t h rest a) {n left : Nat} (hn : n < 7)
    (hl : HasAllowance (h 0).reverse a left (h n)) : endStopSeen (h n) (s n) a = true := by
  have hcfg := run.cfg_eq n hn
  rw [endStopSeen_iff (hcfg ▸ run.valid), hcfg, hl.reverse]
  exact ⟨hl.active, run.asserted n hn⟩

/-- An iteration that finds some allowance left pulses the axis and takes one. -/
theorem pulses_of_hasAllowance (run : OvershootRun s t h rest a) {n left : Nat} (hn : n < 7) (hpos : 0 < left)
    (hl : HasAllowance (h 0).reverse a left (h n)) :
    (∃ h', (t n).homing = some h' ∧ HasAllowance (h 0).reverse a (left - 1) h') ∧
      ∃ v, newTrace (s n) (t n) = [.stepPin v, .stepPin (stepPart (s 0).cfg.invertMask)] ∧
        v.getLsbD a.index = !(stepPart (s 0).cfg.invertMask).getLsbD a.index := by
  rw [run.iteration n hn, ← run.cfg_eq n hn]
  exact homingIteration_pulses_of_allowance (s := iterationStart (h n) (rest n) (s n)) hl hpos
    (run.endStopSeen_of_hasAllowance hn hl)

/-- The `n`-th iteration finds `6 - n` of the allowance left. -/
theorem hasAllowance (run : OvershootRun s t h rest a) : ∀ n, n < 7 → HasAllowance (h 0).reverse a (6 - n) (h n)
  | 0, _ => run.first
  | n + 1, hn => by
    obtain ⟨⟨h', hh', hl⟩, -⟩ :=
      run.pulses_of_hasAllowance (by omega) (by omega) (run.hasAllowance n (by omega))
    have hsame : h (n + 1) = h' :=
      Option.some.inj ((run.locals (n + 1) hn).symm.trans ((run.nextLocals n (by omega)).trans hh'))
    exact hsame ▸ hl

/-- The seventh finds none and masks the axis out. -/
theorem masks_last (run : OvershootRun s t h rest a) :
    (∀ v, Obs.stepPin v ∈ newTrace (s 6) (t 6) →
      v.getLsbD a.index = (stepPart (s 0).cfg.invertMask).getLsbD a.index) ∧
    ∀ h', (t 6).homing = some h' → h'.reverse = (h 0).reverse → h'.active.getLsbD a.index = false := by
  have hl := run.hasAllowance 6 (by omega)
  rw [run.iteration 6 (by omega), ← run.cfg_eq 6 (by omega)]
  exact homingIteration_masks_of_no_allowance (s := iterationStart (h 6) (rest 6) (s 6)) hl
    (run.endStopSeen_of_hasAllowance (by omega) hl)

end OvershootRun

/-! ### The statements -/

/-- Settles O47: the start of a pass, with the directions of the approach pass. -/
theorem homingCycleStartsTheApproachPass : Obligations.HomingCycleStartsTheApproachPass := by
  intro s hb hh
  have hexec : exec .homingCycle s = execHomingCycle s := rfl
  have hready : hostReady s = true := (hostReady_iff s).2 ⟨hb, hh⟩
  rw [hexec, execHomingCycle, hready, Bool.and_true]
  refine ⟨fun hp => ?_, fun hp => if_pos hp⟩
  rw [if_neg (Bool.eq_false_iff.1 hp), hostOperation_of_ready _ hb hh, startPass_eq]
  rfl

/-- Settles O48: the step is the iteration, which pulses if an axis goes on and ends its pass if none does. -/
theorem homingIterationFollowsItsRule : Obligations.HomingIterationFollowsItsRule := by
  intro s rest h hv hi ha hh seen stays
  have hseen : ∀ a, endStopSeen h s a = true ↔ seen a := fun a => endStopSeen_iff hv
  have hstays : ∀ a, stillActive h s a = true ↔ stays a := fun a => by rw [stillActive_iff, hseen]
  have hsome : (∃ a, stillActive h s a = true) ↔ ∃ a, stays a := exists_congr hstays
  refine ⟨_, step_of_homingIter hi ha hh, fun hgoes => ?pulse, fun hnone hr => ?approachEnd,
    fun hnone hr => ?retractEnd⟩
  case pulse =>
    rw [homingIteration_of_active (s := iterationStart h rest s) (hsome.2 hgoes)]
    refine ⟨_, rfl, rfl, fun a => ⟨?_, fun hs => ?_, fun hs => ?_⟩, rfl, rfl⟩
    · exact (Bool.eq_iff_iff.1 (homingCheck_active h s a)).trans (hstays a)
    · exact (homingCheck_allowance h s a).trans (if_pos ((hseen a).2 hs))
    · exact (homingCheck_allowance h s a).trans (if_neg (mt (hseen a).1 hs))
  case approachEnd => exact homingIteration_of_approachEnd (mt hsome.1 hnone) hr
  case retractEnd => exact homingIteration_of_retractEnd (mt hsome.1 hnone) hr

/-- Settles O49: the allowance is 6 less the number of the iteration, so six pulse the axis and the seventh masks it. -/
theorem homingOvershootIsSixPulses : Obligations.HomingOvershootIsSixPulses := by
  intro s t h rest a hv hsteps hnext hactive hallowance hasserted idle
  have run : OvershootRun s t h rest a :=
    { valid := hv
      locals := fun n hn => by
        obtain ⟨-, -, hh, -⟩ := hsteps n hn
        exact hh
      iteration := fun n hn => by
        obtain ⟨hi, ha, hh, ht⟩ := hsteps n hn
        exact Host.Outcome.next.inj (ht.symm.trans (step_of_homingIter hi ha hh))
      nextLocals := fun n hn => (hnext n hn).1
      nextCfg := fun n hn => (hnext n hn).2
      first := ⟨rfl, hactive, hallowance⟩
      asserted := hasserted }
  refine ⟨fun n hn => ?_, run.masks_last⟩
  exact (run.pulses_of_hasAllowance (by omega) (by omega) (run.hasAllowance n (by omega))).2

end Sys2Proof.Machine
end

section
/-! The host operations of the supervisor (R272 to R281): on a ready core each has its effect, one record update. -/

namespace Sys2Proof.Machine

/-- Putting a value on the result port, as one update (R49, R108). -/
theorem returnResult_eq (r : Result) (s : State) :
    returnResult r s = { s with resultPort := some r, trace := s.trace ++ [.result r] } := rfl

/-- The first request is recorded and strobed (R272). -/
theorem requestStop_of_clear (kind : StopStatus) {s : State} (h : s.stopRequested = false) :
    requestStop kind s =
      { s with stopRequested := true, stopStatus := kind, trace := s.trace ++ [.serialStop] } := by
  rw [requestStop, h]
  rfl

/-- With a stop pending a request does nothing (R272). -/
theorem requestStop_of_pending (kind : StopStatus) {s : State} (h : s.stopRequested = true) :
    requestStop kind s = s := if_pos h

section
variable {s : State}

/-! ### Stop requests (R272, R274) -/

/-- `request_stop` on a ready core. -/
theorem exec_requestStop (kind : StopStatus) (hb : s.busy = false) (hh : s.homing = none) :
    exec (.requestStop kind) s = .next (requestStop kind s) :=
  hostOperation_of_ready (requestStop kind) hb hh

/-- `stop_resume` on a ready core. -/
theorem exec_stopResume (hb : s.busy = false) (hh : s.homing = none) :
    exec .stopResume s = .next { s with stopRequested := false, stopStatus := .ok } :=
  hostOperation_of_ready stopResume hb hh

end

/-- Settles O39: the guard of `request_stop`, open for the first request and closed for the second. -/
theorem firstStopRequestIsRecorded : Obligations.FirstStopRequestIsRecorded := by
  intro kind later s hb hh
  refine ⟨fun hclear => ⟨_, ?first, rfl, ?second⟩, fun hpending => ?pending⟩
  case first => rw [exec_requestStop kind hb hh, requestStop_of_clear kind hclear]
  case second =>
    rw [exec_requestStop later (by exact hb) (by exact hh)]
    exact congrArg _ (requestStop_of_pending later rfl)
  case pending => rw [exec_requestStop kind hb hh, requestStop_of_pending kind hpending]

/-- Settles O40: after a first `request_stop(OK)` the two registers `stop_resume` writes held these values before. -/
theorem stopResumeClearsTheStop : Obligations.StopResumeClearsTheStop := by
  intro s hb hh
  refine ⟨exec_stopResume hb hh, fun hclear hok => ⟨_, exec_requestStop .ok hb hh, ?_⟩⟩
  rw [requestStop_of_clear .ok hclear, exec_stopResume (by exact hb) (by exact hh), ← hclear, ← hok]

/-! ### Arming and queries (R273, R275 to R281) -/

/-- Settles O41: the effects of the two operations are these updates. -/
theorem startAndStopProcessing : Obligations.StartAndStopProcessing := fun _ hb hh =>
  ⟨hostOperation_of_ready startProcessing hb hh, hostOperation_of_ready stopProcessing hb hh⟩

/-- What a query answers on a ready core: its value on the result port and in the trace, and nothing else. -/
theorem hostOperation_returnResult {s : State} (r : Result) (hb : s.busy = false) (hh : s.homing = none) :
    hostOperation (returnResult r) s = .next { s with resultPort := some r, trace := s.trace ++ [.result r] } := by
  rw [hostOperation_of_ready (returnResult r) hb hh, returnResult_eq]

/-- Settles O42: the value of each query is its register, a flag read as 0 or 1 (R108). -/
theorem statusQueriesReturnTheRegister : Obligations.StatusQueriesReturnTheRegister := fun s hb hh =>
  ⟨⟨_, rfl, hostOperation_returnResult (boolResult s.processingFlag) hb hh⟩,
    ⟨_, rfl, hostOperation_returnResult (boolResult s.stopRequested) hb hh⟩,
    ⟨_, rfl, hostOperation_returnResult (.u8 s.stopStatus.code) hb hh⟩⟩

/-- Settles O43: the value of each query is `steps_to_mm` of its axis. -/
theorem positionQueriesReturnMillimetres : Obligations.PositionQueriesReturnMillimetres := fun s hb hh =>
  ⟨⟨_, rfl, hostOperation_returnResult (.f64 (positionMm s .x)) hb hh⟩,
    ⟨_, rfl, hostOperation_returnResult (.f64 (positionMm s .y)) hb hh⟩,
    ⟨_, rfl, hostOperation_returnResult (.f64 (positionMm s .z)) hb hh⟩⟩

end Sys2Proof.Machine
end

section
/-! `mm_to_steps` (R283, R284): its integer arithmetic is the exact product rounded half away from zero, so a result
is within half a step of the product. -/

namespace Sys2Proof.Machine

/-! ### Rounding half away from zero -/

/-- From zero on `round_half_away` is the library's `round`, which takes a tie upward. -/
theorem roundHalfAway_of_nonneg {q : ℚ} (hq : 0 ≤ q) : roundHalfAway q = round q := by
  rw [roundHalfAway, if_pos hq, round_eq]

/-- `round_half_away` is odd. -/
theorem roundHalfAway_neg (q : ℚ) : roundHalfAway (-q) = -roundHalfAway q := by
  unfold roundHalfAway
  obtain hneg | rfl | hpos := lt_trichotomy q 0
  · rw [if_pos (by linarith), if_neg (by linarith), neg_neg]
  · norm_num
  · rw [if_neg (by linarith), if_pos hpos.le, neg_neg]

/-- `round_half_away` is within one half. -/
theorem abs_roundHalfAway_sub_le (q : ℚ) : |(roundHalfAway q : ℚ) - q| ≤ 1 / 2 := by
  have hnonneg : ∀ a : ℚ, 0 ≤ a → |(roundHalfAway a : ℚ) - a| ≤ 1 / 2 := fun a ha => by
    rw [roundHalfAway_of_nonneg ha, abs_sub_comm]
    exact abs_sub_round a
  obtain hq | hq := le_total 0 q
  · exact hnonneg q hq
  · have h := hnonneg (-q) (by linarith)
    rw [roundHalfAway_neg, Int.cast_neg, ← neg_sub', abs_neg] at h
    exact h

/-- `round_half_away` keeps an integer. -/
theorem roundHalfAway_intCast (p : Int) : roundHalfAway p = p := by
  have h : |((roundHalfAway p - p : Int) : ℚ)| ≤ 1 / 2 := by
    rw [Int.cast_sub]
    exact abs_roundHalfAway_sub_le p
  have hlt : |roundHalfAway p - p| < 1 := by
    have : (|roundHalfAway p - p| : ℚ) < 1 := by
      push_cast at h
      linarith
    exact_mod_cast this
  rw [Int.abs_lt_one_iff] at hlt
  exact sub_eq_zero.1 hlt

/-! ### The conversion -/

/-- The model's integer division is the rounding of the magnitude. -/
theorem roundHalfUp_eq_roundHalfAway {den : Nat} (num : Nat) (hd : 0 < den) :
    (roundHalfUp num den : Int) = roundHalfAway ((num : ℚ) / den) := by
  have hd' : (den : ℚ) ≠ 0 := by positivity
  have hsum : (num : ℚ) / den + 1 / 2 = ((2 * num + den : Nat) : ℚ) / (2 * den : Nat) := by
    push_cast
    field_simp
  rw [roundHalfAway, if_pos (by positivity), hsum, Rat.floor_natCast_div_natCast, roundHalfUp, Int.natCast_div]

/-- The denominator of a finite `f64` is a power of 2. -/
theorem f64Den_pos (v : F64) : 0 < f64Den v := Nat.two_pow_pos _

/-- `mm_to_steps` rounds the exact product half away from zero (R283). -/
theorem mmToSteps_eq_roundHalfAway {kDen : Nat} (v : F64) (kNum : Nat) (hk : 0 < kDen) :
    mmToSteps v kNum kDen = roundHalfAway (f64Value v * ((kNum : ℚ) / kDen)) := by
  have hmag : (roundHalfUp (f64Num v * kNum) (f64Den v * kDen) : Int) =
      roundHalfAway ((f64Num v : ℚ) / f64Den v * ((kNum : ℚ) / kDen)) := by
    rw [roundHalfUp_eq_roundHalfAway _ (Nat.mul_pos (f64Den_pos v) hk), div_mul_div_comm]
    push_cast
    rfl
  rw [mmToSteps, f64Value]
  split
  · rw [neg_mul, roundHalfAway_neg, hmag]
  · exact hmag

/-! ### The statements -/

/-- Every steps-per-mm constant has a positive denominator in a valid configuration (R8). -/
theorem stepsPerMm_den_pos {c : Config} (hv : c.Valid) (a : Axis) : 0 < (c.stepsPerMm.get a).den := by
  obtain ⟨-, -, -, ⟨⟨-, hx⟩, ⟨-, hy⟩, -, hz⟩, -⟩ := hv
  cases a
  · exact hx
  · exact hy
  · exact hz

/-- The step count of an axis is the rounded product with its constant (R283). -/
theorem positionSteps_eq_roundHalfAway {c : Config} (hv : c.Valid) (a : Axis) (v : F64) :
    positionSteps c a v = roundHalfAway (f64Value v * stepsPerMmValue c a) :=
  mmToSteps_eq_roundHalfAway v _ (stepsPerMm_den_pos hv a)

/-- Settles O45: three finite operands are accepted, and each axis is converted on its own. -/
theorem setPositionRoundsHalfAway : Obligations.SetPositionRoundsHalfAway := by
  intro x y z s hv hb hh hx hy hz
  have haccepted : exec (.setPosition x y z) s = hostOperation (setPosition x y z) s :=
    if_pos (by rw [hx, hy, hz]; rfl)
  rw [haccepted, hostOperation_of_ready _ hb hh, setPosition]
  simp only [positionSteps_eq_roundHalfAway hv]

/-- Settles O46: the error of the rounding, in steps, divided by the constant. -/
theorem positionRoundTripWithinHalfAStep : Obligations.PositionRoundTripWithinHalfAStep := by
  intro v kNum kDen hn hd _
  have hk : (0 : ℚ) < (kNum : ℚ) / kDen := by positivity
  rw [mmToSteps_eq_roundHalfAway v kNum hd]
  generalize (kNum : ℚ) / kDen = k at hk
  refine ⟨?_, fun p hp => ?_⟩
  · have herror : (roundHalfAway (f64Value v * k) : ℚ) / k - f64Value v =
        ((roundHalfAway (f64Value v * k) : ℚ) - f64Value v * k) / k := by
      field_simp
    rw [herror, abs_div, abs_of_pos hk, ← div_div]
    exact div_le_div_of_nonneg_right (abs_roundHalfAway_sub_le _) hk.le
  · rw [hp, div_mul_cancel₀ _ hk.ne', roundHalfAway_intCast]

end Sys2Proof.Machine
end

section
/-! `steps_to_mm` (R283). Magnitudes are measured on the grid of step `2^-1074`, on which every finite binary64 lies at
`f64Steps`. The result is the nearest multiple of `2^e` to the quotient, `e` its scale; any other binary64 is a multiple
of `2^e` too, or lies below the power of 2 at the foot of the quotient's binade, itself a multiple of `2^e`. -/

namespace Sys2Proof.Machine

/-! ### Rounding to the nearest integer -/

/-- An integer within one half of `x` is as near to `x` as any integer. -/
theorem abs_sub_le_of_near {x : ℚ} {r : Int} (h : |(r : ℚ) - x| ≤ 1 / 2) (k : Int) : |(r : ℚ) - x| ≤ |(k : ℚ) - x| := by
  obtain rfl | hne := eq_or_ne k r
  · exact le_rfl
  · have hone : (1 : ℚ) ≤ |(k : ℚ) - r| := by
      exact_mod_cast Int.one_le_abs (sub_ne_zero.2 hne)
    have htriangle : |(k : ℚ) - r| ≤ |(k : ℚ) - x| + |(r : ℚ) - x| := by
      rw [abs_sub_comm (r : ℚ) x]
      exact abs_sub_le _ _ _
    linarith

/-- Both bounds of `roundHalfEven`, over twice the denominator. -/
theorem roundHalfEven_bounds {den : Nat} (num : Nat) (hd : 0 < den) :
    2 * num ≤ (2 * roundHalfEven num den + 1) * den ∧ 2 * roundHalfEven num den * den ≤ 2 * num + den := by
  have hdiv : num = den * (num / den) + num % den := (Nat.div_add_mod num den).symm
  have hlt : num % den < den := Nat.mod_lt _ hd
  unfold roundHalfEven
  generalize num / den = q at *
  generalize num % den = r at *
  subst hdiv
  dsimp only
  have hround : ∀ b : Nat, (b = 0 ∧ 2 * r ≤ den) ∨ (b = 1 ∧ den ≤ 2 * r) →
      2 * (den * q + r) ≤ (2 * (q + b) + 1) * den ∧ 2 * (q + b) * den ≤ 2 * (den * q + r) + den := by
    rintro b (⟨rfl, hb⟩ | ⟨rfl, hb⟩) <;> constructor <;> nlinarith
  split_ifs with hbelow habove
  · exact hround 0 (.inl ⟨rfl, hbelow.le⟩)
  · exact hround 1 (.inr ⟨rfl, habove.le⟩)
  · exact hround 0 (.inl ⟨rfl, not_lt.1 habove⟩)
  · exact hround 1 (.inr ⟨rfl, not_lt.1 hbelow⟩)

section
variable {num den : Nat}

/-- `roundHalfEven` is within one half of the quotient. -/
theorem abs_roundHalfEven_sub_le (num : Nat) (hd : 0 < den) :
    |(roundHalfEven num den : ℚ) - (num : ℚ) / den| ≤ 1 / 2 := by
  obtain ⟨hlow, hhigh⟩ := roundHalfEven_bounds num hd
  have hd' : (0 : ℚ) < den := by exact_mod_cast hd
  have hlow' : (2 * num : ℚ) ≤ (2 * roundHalfEven num den + 1) * den := by exact_mod_cast hlow
  have hhigh' : (2 * roundHalfEven num den * den : ℚ) ≤ 2 * num + den := by exact_mod_cast hhigh
  have hscaled : (num : ℚ) / den * den = num := div_mul_cancel₀ _ hd'.ne'
  rw [abs_sub_le_iff]
  constructor <;> nlinarith

/-- In units of `u`, no multiple of `u` is nearer to the quotient than the rounded one. -/
theorem abs_roundHalfEven_mul_sub_le {u : Nat} (num : Nat) (hd : 0 < den) (hu : 0 < u) (k : Nat) :
    |((roundHalfEven num (den * u) * u : Nat) : ℚ) - (num : ℚ) / den| ≤ |((k * u : Nat) : ℚ) - (num : ℚ) / den| := by
  have hd' : (den : ℚ) ≠ 0 := by positivity
  have hu' : (0 : ℚ) < u := by exact_mod_cast hu
  have hunits : ∀ a : Nat,
      ((a * u : Nat) : ℚ) - (num : ℚ) / den = (((a : Int) : ℚ) - (num : ℚ) / (den * u : Nat)) * u := fun a => by
    push_cast
    field_simp
  rw [hunits, hunits, abs_mul, abs_mul, abs_of_pos hu']
  exact mul_le_mul_of_nonneg_right (abs_sub_le_of_near (abs_roundHalfEven_sub_le num (Nat.mul_pos hd hu)) k) hu'.le

/-- `roundHalfEven` does not pass an integer above the quotient. -/
theorem roundHalfEven_le {a : Nat} (hd : 0 < den) (h : num ≤ a * den) : roundHalfEven num den ≤ a := by
  obtain ⟨-, hhigh⟩ := roundHalfEven_bounds num hd
  have hmul : 2 * roundHalfEven num den * den ≤ (2 * a + 1) * den := by linarith
  have := Nat.le_of_mul_le_mul_right hmul hd
  omega

/-- `roundHalfEven` does not pass an integer below the quotient. -/
theorem le_roundHalfEven {a : Nat} (hd : 0 < den) (h : a * den ≤ num) : a ≤ roundHalfEven num den := by
  obtain ⟨hlow, -⟩ := roundHalfEven_bounds num hd
  have hmul : 2 * a * den ≤ (2 * roundHalfEven num den + 1) * den := by linarith
  have := Nat.le_of_mul_le_mul_right hmul hd
  omega

/-! ### The grid of the binary64 -/

/-- The magnitude of a finite binary64 as a multiple of the smallest one, `2^-1074`. -/
def f64Steps (v : F64) : Nat := f64Significand v * 2 ^ (f64Exponent v - 1)

/-- The quotient the model computes with, in steps of the grid. -/
theorem f64Num_div_f64Den (v : F64) : (f64Num v : ℚ) / f64Den v = (f64Steps v : ℚ) / 2 ^ 1074 := by
  have hcross : f64Num v * 2 ^ 1074 = f64Steps v * f64Den v := by
    rw [f64Num, f64Steps, f64Den, mul_assoc, mul_assoc, ← pow_add, ← pow_add,
      show max (f64Exponent v) 1 - 1075 + 1074 = f64Exponent v - 1 + (1075 - max (f64Exponent v) 1) by omega]
  have hden : (f64Den v : ℚ) ≠ 0 := Nat.cast_ne_zero.2 (f64Den_pos v).ne'
  rw [div_eq_div_iff hden (pow_ne_zero _ two_ne_zero), ← Nat.cast_ofNat (R := ℚ), ← Nat.cast_pow, ← Nat.cast_mul,
    ← Nat.cast_mul, hcross]

/-- The exact value is its magnitude with the sign of the sign bit. -/
theorem f64Value_eq_f64Steps (v : F64) :
    f64Value v = if f64Negative v then -((f64Steps v : ℚ) / 2 ^ 1074) else (f64Steps v : ℚ) / 2 ^ 1074 := by
  rw [f64Value, f64Num_div_f64Den]

/-- The magnitude of the exact value, in steps of the grid. -/
theorem abs_f64Value (v : F64) : |f64Value v| = (f64Steps v : ℚ) / 2 ^ 1074 := by
  have hnonneg : 0 ≤ (f64Steps v : ℚ) / 2 ^ 1074 := by positivity
  rw [f64Value_eq_f64Steps]
  split
  · rw [abs_neg, abs_of_nonneg hnonneg]
  · rw [abs_of_nonneg hnonneg]

/-- The significand has 53 bits. -/
theorem f64Significand_lt (v : F64) : f64Significand v < 2 ^ 53 := by
  have hfraction : f64Fraction v < 2 ^ 52 := (v.extractLsb' 0 52).isLt
  unfold f64Significand
  split <;> omega

/-- A binary64 lies on the multiples of `2^e`, or below the binade in which these are the grid. -/
theorem two_pow_dvd_f64Steps_or_lt (w : F64) (e : Nat) :
    2 ^ e ∣ f64Steps w ∨ (e ≠ 0 ∧ f64Steps w < 2 ^ (52 + e)) := by
  obtain hle | hlt := le_or_gt e (f64Exponent w - 1)
  · exact .inl (Dvd.dvd.mul_left (pow_dvd_pow 2 hle) _)
  · refine .inr ⟨by omega, ?_⟩
    calc f64Steps w < 2 ^ 53 * 2 ^ (f64Exponent w - 1) :=
          Nat.mul_lt_mul_of_pos_right (f64Significand_lt w) (Nat.two_pow_pos _)
      _ = 2 ^ (53 + (f64Exponent w - 1)) := (pow_add ..).symm
      _ ≤ 2 ^ (52 + e) := Nat.pow_le_pow_right (by decide) (by omega)

/-- The encoding is monotone across binades: with a magnitude of `e * 2^52 + r` the value is `r` steps of `2^e`, also
where `r` carries into the next exponent. -/
theorem f64Steps_of_magnitude {v : F64} {e r : Nat} (hexp : f64Exponent v = (e * 2 ^ 52 + r) / 2 ^ 52)
    (hfrac : f64Fraction v = (e * 2 ^ 52 + r) % 2 ^ 52) (hr : r ≤ 2 ^ 53) (hfoot : e ≠ 0 → 2 ^ 52 ≤ r) :
    f64Steps v = r * 2 ^ e := by
  rw [f64Steps, f64Significand]
  obtain hsub | hnormal | rfl : r < 2 ^ 52 ∨ (2 ^ 52 ≤ r ∧ r < 2 ^ 53) ∨ r = 2 ^ 53 := by omega
  · obtain rfl : e = 0 := by
      by_contra he
      exact absurd (hfoot he) (by omega)
    rw [show f64Exponent v = 0 by omega, show f64Fraction v = r by omega]
    rfl
  · rw [show f64Exponent v = e + 1 by omega, show f64Fraction v = r - 2 ^ 52 by omega, if_neg e.succ_ne_zero,
      Nat.add_sub_cancel, Nat.add_sub_cancel' hnormal.1]
  · rw [show f64Exponent v = e + 2 by omega, show f64Fraction v = 0 by omega, if_neg (by omega)]
    change (2 ^ 52 + 0) * 2 ^ (e + 1) = 2 ^ 53 * 2 ^ e
    ring

/-! ### The nearest multiple of the scale -/

/-- The significand `f64Magnitude` rounds to, in units of `2^e` with `e` the scale. -/
def f64Rounded (num den : Nat) : Nat := roundHalfEven (num * 2 ^ 1074) (den * 2 ^ f64Scale num den)

/-- The magnitude bits before the clamp to infinity. -/
theorem f64Magnitude_eq (num den : Nat) :
    f64Magnitude num den = min (f64Scale num den * 2 ^ 52 + f64Rounded num den) (2047 * 2 ^ 52) := rfl

/-- A quotient of positive scale has its leading bit at bit `52 + scale`. -/
theorem foot_le_of_scale_ne_zero (hd : 0 < den) (he : f64Scale num den ≠ 0) :
    2 ^ 52 * (den * 2 ^ f64Scale num den) ≤ num * 2 ^ 1074 := by
  have hlog : 52 + f64Scale num den = Nat.log2 (num * 2 ^ 1074 / den) := by
    unfold f64Scale at *
    omega
  have hpos : num * 2 ^ 1074 / den ≠ 0 := fun h0 => by
    rw [h0, Nat.log2_zero] at hlog
    omega
  have hfoot : 2 ^ (52 + f64Scale num den) ≤ num * 2 ^ 1074 / den := hlog ▸ Nat.log2_self_le hpos
  calc 2 ^ 52 * (den * 2 ^ f64Scale num den) = 2 ^ (52 + f64Scale num den) * den := by ring
    _ ≤ num * 2 ^ 1074 := (Nat.le_div_iff_mul_le hd).1 hfoot

/-- A quotient lies below `2^(53 + scale)`. -/
theorem lt_top_of_scale (num : Nat) (hd : 0 < den) : num * 2 ^ 1074 < 2 ^ 53 * (den * 2 ^ f64Scale num den) := by
  have hlog : Nat.log2 (num * 2 ^ 1074 / den) + 1 ≤ 53 + f64Scale num den := by
    unfold f64Scale
    omega
  have htop : num * 2 ^ 1074 / den < 2 ^ (53 + f64Scale num den) :=
    Nat.lt_of_lt_of_le Nat.lt_log2_self (Nat.pow_le_pow_right (by decide) hlog)
  calc num * 2 ^ 1074 < 2 ^ (53 + f64Scale num den) * den := (Nat.div_lt_iff_lt_mul hd).1 htop
    _ = 2 ^ 53 * (den * 2 ^ f64Scale num den) := by ring

/-- The unit of the rounded significand is positive. -/
theorem scaledDen_pos (num : Nat) (hd : 0 < den) : 0 < den * 2 ^ f64Scale num den :=
  Nat.mul_pos hd (Nat.two_pow_pos _)

/-- The rounded significand is at most `2^53`, where it carries into the next binade. -/
theorem f64Rounded_le (num : Nat) (hd : 0 < den) : f64Rounded num den ≤ 2 ^ 53 :=
  roundHalfEven_le (scaledDen_pos num hd) (lt_top_of_scale num hd).le

/-- Above the subnormals the rounded significand has its hidden bit. -/
theorem le_f64Rounded (hd : 0 < den) (he : f64Scale num den ≠ 0) : 2 ^ 52 ≤ f64Rounded num den :=
  le_roundHalfEven (scaledDen_pos num hd) (foot_le_of_scale_ne_zero hd he)

/-- No binary64 is nearer to the quotient than the rounded multiple of `2^e`. -/
theorem abs_f64Rounded_sub_le (num : Nat) (hd : 0 < den) (w : F64) :
    |((f64Rounded num den * 2 ^ f64Scale num den : Nat) : ℚ) - ((num * 2 ^ 1074 : Nat) : ℚ) / den| ≤
      |(f64Steps w : ℚ) - ((num * 2 ^ 1074 : Nat) : ℚ) / den| := by
  have hmultiple := abs_roundHalfEven_mul_sub_le (num * 2 ^ 1074) hd (Nat.two_pow_pos (f64Scale num den))
  obtain ⟨k, hk⟩ | ⟨he, hlt⟩ := two_pow_dvd_f64Steps_or_lt w (f64Scale num den)
  · rw [hk, mul_comm (2 ^ f64Scale num den) k]
    exact hmultiple k
  · have hfoot : ((2 ^ 52 * 2 ^ f64Scale num den : Nat) : ℚ) ≤ ((num * 2 ^ 1074 : Nat) : ℚ) / den := by
      rw [le_div_iff₀ (Nat.cast_pos.2 hd), ← Nat.cast_mul, Nat.cast_le, mul_assoc, mul_comm _ den]
      exact foot_le_of_scale_ne_zero hd he
    have hbelow : (f64Steps w : ℚ) ≤ ((2 ^ 52 * 2 ^ f64Scale num den : Nat) : ℚ) := by
      rw [Nat.cast_le, ← pow_add]
      exact hlt.le
    refine (hmultiple (2 ^ 52)).trans ?_
    rw [abs_of_nonpos (sub_nonpos.2 hfoot), abs_of_nonpos (sub_nonpos.2 (hbelow.trans hfoot))]
    exact neg_le_neg (sub_le_sub_right hbelow _)

/-! ### The encoding of the result -/

/-- The exponent field of a word, as arithmetic. -/
theorem f64Exponent_eq (v : F64) : f64Exponent v = v.toNat / 2 ^ 52 % 2 ^ 11 := by
  rw [f64Exponent, BitVec.extractLsb'_toNat, Nat.shiftRight_eq_div_pow]

/-- The fraction field of a word, as arithmetic. -/
theorem f64Fraction_eq (v : F64) : f64Fraction v = v.toNat % 2 ^ 52 := by
  rw [f64Fraction, BitVec.extractLsb'_toNat, Nat.shiftRight_zero]

/-- The sign bit of a word, as arithmetic. -/
theorem f64Negative_eq (v : F64) : f64Negative v = decide (2 ^ 63 ≤ v.toNat) := BitVec.msb_eq_decide v

/-- The magnitude of an exact zero is that of the word 0. -/
theorem f64Magnitude_zero (den : Nat) : f64Magnitude 0 den = 0 := by
  simp only [f64Magnitude, f64Scale, roundHalfEven, zero_mul, Nat.zero_div, Nat.zero_mod, mul_zero, Nat.not_lt_zero,
    Nat.log2_zero, Nat.zero_sub, if_true, if_false, ite_self, add_zero]
  exact Nat.zero_min _

/-- The result as a number: the magnitude bits, with the sign bit unless the quotient is zero. -/
theorem f64Nearest_toNat (negative : Bool) (num den : Nat) :
    (f64Nearest negative num den).toNat =
      f64Magnitude num den + if negative ∧ num ≠ 0 then 2 ^ 63 else 0 := by
  have hle : f64Magnitude num den ≤ 2047 * 2 ^ 52 := min_le_right _ _
  rw [f64Nearest]
  obtain rfl | hnum := eq_or_ne num 0
  · simp [f64Magnitude_zero]
  · rw [if_neg hnum, BitVec.toNat_ofNat]
    simp only [and_iff_left hnum]
    exact Nat.mod_eq_of_lt (by split <;> omega)

/-- The exponent and the fraction of the result are the two parts of its magnitude bits. -/
theorem f64Nearest_fields (negative : Bool) (num den : Nat) :
    f64Exponent (f64Nearest negative num den) = f64Magnitude num den / 2 ^ 52 ∧
      f64Fraction (f64Nearest negative num den) = f64Magnitude num den % 2 ^ 52 := by
  have hle : f64Magnitude num den ≤ 2047 * 2 ^ 52 := min_le_right _ _
  rw [f64Exponent_eq, f64Fraction_eq, f64Nearest_toNat]
  split <;> omega

/-- The sign of the result is the one asked for, an exact zero apart. -/
theorem f64Nearest_negative (negative : Bool) (num den : Nat) :
    f64Negative (f64Nearest negative num den) = decide (negative ∧ num ≠ 0) := by
  have hle : f64Magnitude num den ≤ 2047 * 2 ^ 52 := min_le_right _ _
  rw [f64Negative_eq, f64Nearest_toNat, decide_eq_decide]
  split
  next h => exact iff_of_true (Nat.le_add_left _ _) h
  next h => exact iff_of_false (by omega) h

/-- The result is finite unless the clamp to infinity acts. -/
theorem f64Finite_f64Nearest_iff (negative : Bool) (num den : Nat) :
    f64Finite (f64Nearest negative num den) = true ↔
      f64Scale num den * 2 ^ 52 + f64Rounded num den < 2047 * 2 ^ 52 := by
  rw [f64Finite, (f64Nearest_fields negative num den).1, f64Magnitude_eq, bne_iff_ne]
  omega

/-- A finite result lies at the rounded multiple of `2^e`. -/
theorem f64Steps_f64Nearest {negative : Bool} (hd : 0 < den) (hf : f64Finite (f64Nearest negative num den) = true) :
    f64Steps (f64Nearest negative num den) = f64Rounded num den * 2 ^ f64Scale num den := by
  obtain ⟨hexp, hfrac⟩ := f64Nearest_fields negative num den
  rw [f64Magnitude_eq, min_eq_left ((f64Finite_f64Nearest_iff negative num den).1 hf).le] at hexp hfrac
  exact f64Steps_of_magnitude hexp hfrac (f64Rounded_le num hd) (le_f64Rounded hd)

/-- A quotient of at most `2^1023` does not reach the clamp. -/
theorem f64Finite_f64Nearest (negative : Bool) (hd : 0 < den) (h : num ≤ den * 2 ^ 1023) :
    f64Finite (f64Nearest negative num den) = true := by
  have hle := f64Rounded_le num hd
  have hbound : num * 2 ^ 1074 ≤ den * 2 ^ 2097 := by
    rw [show 2097 = 1023 + 1074 from rfl, pow_add, ← mul_assoc]
    exact Nat.mul_le_mul_right _ h
  have hscale : f64Scale num den ≤ 2045 := by
    by_contra hgt
    have hfoot : den * 2 ^ (52 + f64Scale num den) ≤ den * 2 ^ 2097 := by
      rw [pow_add, mul_left_comm]
      exact (foot_le_of_scale_ne_zero hd (by omega)).trans hbound
    have hexp := (Nat.pow_le_pow_iff_right (by decide)).1 (Nat.le_of_mul_le_mul_left hfoot hd)
    omega
  rw [f64Finite_f64Nearest_iff]
  obtain hlt | heq := hscale.lt_or_eq
  · omega
  · have htop : f64Rounded num den ≤ 2 ^ 52 := roundHalfEven_le (scaledDen_pos num hd) <| by
      rw [heq, mul_left_comm, ← pow_add, show 52 + 2045 = 2097 from rfl]
      exact hbound
    omega

end

/-! ### The statement -/

section
variable {kDen : Nat}

/-- The magnitude of the exact quotient `p / k`. -/
theorem abs_div_ratio (p : Int) (kNum kDen : Nat) :
    |(p : ℚ) / ((kNum : ℚ) / kDen)| = ((p.natAbs * kDen : Nat) : ℚ) / kNum := by
  rw [abs_div, abs_of_nonneg (by positivity : (0 : ℚ) ≤ (kNum : ℚ) / kDen), div_div_eq_mul_div, Nat.cast_mul,
    Nat.cast_natAbs, Int.cast_abs]

/-- The result has the sign of the step count; an exact zero is `+0`. -/
theorem stepsToMm_negative (p : Int) (kNum : Nat) (hd : 0 < kDen) :
    f64Negative (stepsToMm p kNum kDen) = decide (p < 0) := by
  rw [stepsToMm, f64Nearest_negative, decide_eq_decide, decide_eq_true_iff, and_iff_left_iff_imp]
  intro hp
  exact (Nat.mul_pos (Int.natAbs_pos.2 hp.ne) hd).ne'

/-- The result and the quotient have the same sign, so they differ as their magnitudes do. -/
theorem abs_stepsToMm_sub (p : Int) (kNum : Nat) (hd : 0 < kDen) :
    |f64Value (stepsToMm p kNum kDen) - (p : ℚ) / ((kNum : ℚ) / kDen)| =
      |(|f64Value (stepsToMm p kNum kDen)| - |(p : ℚ) / ((kNum : ℚ) / kDen)|)| := by
  have hk : (0 : ℚ) ≤ (kNum : ℚ) / kDen := by positivity
  rw [abs_f64Value, f64Value_eq_f64Steps, stepsToMm_negative p kNum hd]
  obtain hp | hp := lt_or_ge p 0
  · have hquot : (p : ℚ) / ((kNum : ℚ) / kDen) ≤ 0 := div_nonpos_of_nonpos_of_nonneg (by exact_mod_cast hp.le) hk
    rw [decide_eq_true hp, if_pos rfl, abs_of_nonpos hquot, ← abs_neg, neg_sub', neg_neg]
  · have hquot : 0 ≤ (p : ℚ) / ((kNum : ℚ) / kDen) := div_nonneg (by exact_mod_cast hp) hk
    rw [decide_eq_false hp.not_gt, if_neg Bool.false_ne_true, abs_of_nonneg hquot]

/-- The distance of the magnitudes of a binary64 and of the quotient, in steps of the grid. -/
theorem abs_f64Value_sub_quotient (w : F64) (p : Int) (kNum kDen : Nat) :
    |(|f64Value w| - |(p : ℚ) / ((kNum : ℚ) / kDen)|)| =
      |(f64Steps w : ℚ) - ((p.natAbs * kDen * 2 ^ 1074 : Nat) : ℚ) / kNum| / 2 ^ 1074 := by
  have hgrid : (0 : ℚ) < 2 ^ 1074 := by positivity
  rw [abs_f64Value, abs_div_ratio, Nat.cast_mul _ (2 ^ 1074), Nat.cast_pow, Nat.cast_ofNat]
  generalize (2 : ℚ) ^ 1074 = g at hgrid
  rw [← abs_of_pos hgrid, ← abs_div, abs_of_pos hgrid, sub_div, mul_div_right_comm, mul_div_cancel_right₀ _ hgrid.ne']

end

/-- Settles O44: the result is the rounded multiple of `2^e`, with the sign of the quotient. -/
theorem stepsToMmIsTheNearestDouble : Obligations.StepsToMmIsTheNearestDouble := by
  intro p kNum kDen hn hd
  refine ⟨f64Finite_f64Nearest _ hn, fun hf w _ => ?_⟩
  rw [abs_stepsToMm_sub p kNum hd]
  refine le_trans ?_ (abs_abs_sub_abs_le _ _)
  rw [abs_f64Value_sub_quotient, abs_f64Value_sub_quotient, stepsToMm, f64Steps_f64Nearest hn hf]
  exact div_le_div_of_nonneg_right (abs_f64Rounded_sub_le (p.natAbs * kDen) hn w) (by positivity)

end Sys2Proof.Machine
end

section
/-! A fire with an interlock input asserted (R309): the cut of step 4 takes the duty before step 5 (R220), and what a
pulse at duty 0 and the rest of the invocation add to the trace is no sign of a laser pulse. -/

namespace Sys2Proof.Machine

/-- An entry of the trace that only a laser pulse with a non-zero duty makes (R192): the pin driven high, or the beam
one-shot programmed. -/
def Obs.isLaserPulse : Obs → Bool
  | .laserPin v => v
  | .beamTimer _ _ => true
  | _ => false

/-- From `s` to `t` no laser pulse with a non-zero duty was issued: the trace shows none and the pin did not rise. -/
structure NoLaserPulse (s t : State) : Prop where
  trace : ∃ l, t.trace = s.trace ++ l ∧ l.any Obs.isLaserPulse = false
  pin : t.laserPin = true → s.laserPin = true

/-- Nothing new in the trace and the same pin. -/
theorem NoLaserPulse.of_eq {s t : State} (htrace : t.trace = s.trace) (hpin : t.laserPin = s.laserPin) :
    NoLaserPulse s t :=
  ⟨⟨[], by rw [htrace, List.append_nil], rfl⟩, fun h => hpin ▸ h⟩

theorem NoLaserPulse.trans {s t u : State} (h : NoLaserPulse s t) (h' : NoLaserPulse t u) : NoLaserPulse s u := by
  obtain ⟨l, hl, hnone⟩ := h.trace
  obtain ⟨l', hl', hnone'⟩ := h'.trace
  refine ⟨⟨l ++ l', ?_, ?_⟩, fun hu => h.pin (h'.pin hu)⟩
  · rw [hl', hl, List.append_assoc]
  · rw [List.any_append, hnone, hnone']
    rfl

/-- The new entries of the trace are none that a pulse makes (R49). -/
theorem NoLaserPulse.not_mem_newTrace {s t : State} (h : NoLaserPulse s t) {o : Obs} (ho : o.isLaserPulse = true) :
    o ∉ newTrace s t := by
  obtain ⟨l, hl, hnone⟩ := h.trace
  rw [newTrace_of_append hl]
  exact fun hmem => List.any_eq_false.1 hnone o hmem ho

/-! ### Steps 4 and 5 -/

/-- The cut writes the intensity (R220). -/
theorem interlockCut_noLaserPulse {s : State} (h : interlockOpen s = true) : NoLaserPulse s (interlockCut s) := by
  rw [interlockCut_of_open h]
  exact ⟨⟨[.laserDuty 0], rfl, rfl⟩, id⟩

/-- A limit ends the invocation with its strobe at most (R220, R272). -/
theorem limitReturn_noLaserPulse (kind : StopStatus) (s : State) : NoLaserPulse s (limitReturn kind s) := by
  obtain ⟨-, htrace⟩ := requestStop_frame kind s
  have hpin : (limitReturn kind s).laserPin = s.laserPin := by rw [limitReturn_frame]
  obtain hnone | hstrobe := htrace
  · exact .of_eq hnone hpin
  · exact ⟨⟨[.serialStop], hstrobe, rfl⟩, fun h => hpin ▸ h⟩

/-- At duty 0 step 5 drops the pin if a pulse is due, and counts otherwise (R191, R192). -/
theorem beamStepPulse_noLaserPulse {s : State} (h : s.laserDuty = 0) : NoLaserPulse s (beamStepPulse s) := by
  unfold beamStepPulse
  split
  · rw [issueLaserPulse_of_zero (by exact h)]
    exact ⟨⟨[.laserPin false], rfl, rfl⟩, fun hpin => by cases hpin⟩
  · exact .of_eq rfl rfl

/-- Steps 4 and 5 with an interlock input asserted: the cut leaves step 5 duty 0 (R220, R309). -/
theorem preamble_noLaserPulse {s : State} (h : interlockOpen s = true) :
    NoLaserPulse s (beamStepPulse (interlockCut s)) := by
  have hduty : (interlockCut s).laserDuty = 0 := by rw [interlockCut_of_open h]
  exact (interlockCut_noLaserPulse h).trans (beamStepPulse_noLaserPulse hduty)

/-! ### Steps 6 to 8 -/

/-- `StepEnter` of a motion block drives the step and dir pins, after block init if it fetches the block (R224,
R226). -/
theorem motionEnter_noLaserPulse (k : MotionKind) (b : MotionBlock) (s : State) :
    NoLaserPulse s (motionEnter k b s) := by
  cases hc : s.currentBlock with
  | none =>
    have hpin := (motionEnter_keepsLaserPin k b s).pin
    exact ⟨⟨_, motionEnter_trace_of_fetch hc, rfl⟩, fun h => hpin ▸ h⟩
  | some blk =>
    rw [motionEnter_of_current (by rw [hc]; rfl), bresenhamStep_eq]
    exact ⟨⟨_, rfl, rfl⟩, id⟩

/-- A block run with `busy = 0` (R225, R230). -/
theorem exec_block_noLaserPulse {blk : Block} {s t : State} (hb : s.busy = false) (h : exec blk.toInstr s = .next t) :
    NoLaserPulse s t := by
  obtain ⟨k, b, -, -, -, ⟨-, rfl⟩ | ⟨hb', -⟩⟩ | ⟨v, rfl⟩ | ⟨v, rfl⟩ | ⟨v, rfl⟩ := exec_block_next h
  · exact motionEnter_noLaserPulse k b s
  · rw [hb] at hb'
    cases hb'
  · rw [finishAssist_controlAirAssist]
    exact ⟨⟨_, rfl, rfl⟩, id⟩
  · rw [finishAssist_controlAux1Assist]
    exact ⟨⟨_, rfl, rfl⟩, id⟩
  · rw [finishAssist_controlAux2Assist]
    exact ⟨⟨_, rfl, rfl⟩, id⟩

/-- Whichever block is run, or the underrun (R222, R223, R225). -/
theorem dispatchBlock_noLaserPulse {s t : State} (hb : s.busy = false) (h : dispatchBlock s = .next t) :
    NoLaserPulse s t := by
  obtain ⟨blk, -, he⟩ | ⟨-, -, rfl⟩ | ⟨record, rest, blk, -, -, -, -, he⟩ := dispatchBlock_next h
  · exact exec_block_noLaserPulse hb he
  · exact .of_eq rfl rfl
  · exact exec_block_noLaserPulse hb he

/-! ### The invocation -/

/-- An invocation with an interlock input asserted, on each of its paths (R219, R220, R229). -/
theorem stepEnter_noLaserPulse {s t : State} (hopen : interlockOpen s = true) (hb : s.busy = false)
    (h : stepEnter s = .next t) : NoLaserPulse s t := by
  obtain ⟨-, rfl⟩ | ⟨-, kind, -, rfl⟩ | ⟨-, -, hd⟩ := stepEnter_next h
  · exact ⟨⟨[.plannerResetBlockBuffer], rfl, rfl⟩, id⟩
  · exact (interlockCut_noLaserPulse hopen).trans (limitReturn_noLaserPulse kind _)
  · have hbusy : (beamStepPulse (interlockCut s)).busy = false := by
      rw [preamble_frame]
      exact hb
    exact (preamble_noLaserPulse hopen).trans (dispatchBlock_noLaserPulse hbusy hd)

/-- A fire with an interlock input asserted, dropped or not (R216). -/
theorem fire_noLaserPulse {s t : State} {rest : List Event} (hf : FireNext s rest) (hopen : interlockOpen s = true)
    (h : step s = .next t) : NoLaserPulse s t := by
  have hfired : NoLaserPulse s (fired s rest) := .of_eq rfl rfl
  cases hb : s.busy
  · rw [step_of_invocation hf hb] at h
    exact hfired.trans (stepEnter_noLaserPulse (s := fired s rest) hopen hb h)
  · rw [droppedTickChangesNothing s rest hf hb] at h
    cases h
    exact hfired

/-- Settles O15: a fire with an interlock input asserted issues no laser pulse. -/
theorem noLaserPulseWithInterlockOpen : Obligations.NoLaserPulseWithInterlockOpen := by
  intro s t rest hf hopen h
  have hnone := fire_noLaserPulse hf hopen h
  exact ⟨hnone.not_mem_newTrace rfl, fun _ _ => hnone.not_mem_newTrace rfl, hnone.pin⟩

end Sys2Proof.Machine
end

section
/-! Leaving idle (R275, R320): of all the events only `start_processing()` arms the step timer. -/

namespace Sys2Proof.Machine

/-- A homing iteration leaves the flag (R259). -/
theorem homingIteration_processingFlag (l : Homing) (s : State) :
    (homingIteration l s).processingFlag = s.processingFlag := by
  obtain ⟨-, e⟩ | ⟨-, -, e⟩ | ⟨-, -, e⟩ := homingIteration_cases l s
  · rw [e]
  · rw [e, startPass_eq]
  · rw [e]

/-- `init()` leaves an initialised core, idle and at position zero (R340). -/
theorem initialise_idle (s : State) :
    (initialise s).initialised = true ∧ (initialise s).processingFlag = false ∧
      (initialise s).position = ⟨0, 0, 0⟩ := by
  rw [initialise_eq, initOutputs_eq, setStepRate_eq]
  exact ⟨rfl, rfl, rfl⟩

/-- Of the host operations `start_processing()` alone sets the flag (R275). -/
theorem HostEffect.armed_or_starts {s t : State} {i : Instr} (h : HostEffect s i t) (hon : t.processingFlag = true) :
    s.processingFlag = true ∨ i = .startProcessing := by
  cases h with
  | init _ =>
    obtain ⟨-, hoff, -⟩ := initialise_idle s
    rw [hoff] at hon
    cases hon
  | startProcessing => exact .inr rfl
  | stopProcessing => cases hon
  | requestStop kind =>
    rw [(requestStop_frame kind s).1] at hon
    exact .inl hon
  | _ => exact .inl hon

/-- An event that leaves the step timer armed found it armed, as every fire does (R300), or is
`start_processing()`. -/
theorem EventEffect.armed_or_starts {s t : State} {e : Event} (h : EventEffect s t e) (hon : t.processingFlag = true) :
    s.processingFlag = true ∨ ∃ bytes, e = .hostOp bytes ∧ decode .hostPort bytes = .ok .startProcessing := by
  cases h with
  | droppedTick hen => exact .inl ((stepTimerEnabled_iff s).1 hen).1
  | invocation hen => exact .inl ((stepTimerEnabled_iff s).1 hen).1
  | stepExit k b _ _ _ _ _ ht =>
    rw [ht, motionExit_frame] at hon
    exact .inl hon
  | homingIter l _ ht =>
    rw [ht, homingIteration_processingFlag] at hon
    exact .inl hon
  | hostOp bytes i hd _ _ ht =>
    obtain hs | rfl := ht.armed_or_starts hon
    · exact .inl hs
    · exact .inr ⟨bytes, rfl, hd⟩
  | pulseResetFire _ ht => subst ht; exact .inl hon
  | beamResetFire _ ht => subst ht; exact .inl hon
  | plannerPush _ _ ht => subst ht; exact .inl hon
  | rasterPush _ ht => subst ht; exact .inl hon
  | senseChange _ ht => subst ht; exact .inl hon
  | clockAdvance _ ht => subst ht; exact .inl hon

/-- A step that leaves the step timer armed found it armed, or takes `start_processing()` off the agenda. -/
theorem step_armed_or_starts {s t : State} (h : step s = .next t) (hon : t.processingFlag = true) :
    s.processingFlag = true ∨
      ∃ bytes rest, s.agenda = .hostOp bytes :: rest ∧ decode .hostPort bytes = .ok .startProcessing := by
  obtain ⟨-, bytes, rest, -, -, -, rfl⟩ | ⟨-, e, rest, ha, -, he⟩ | ⟨-, e, ho, he⟩ | ⟨-, -, rfl⟩ := step_next h
  · obtain ⟨-, hoff, -⟩ := initialise_idle { s with agenda := rest, busy := false, homing := none }
    rw [hoff] at hon
    cases hon
  · obtain hs | ⟨bytes, rfl, hd⟩ := he.armed_or_starts hon
    · exact .inl hs
    · exact .inr ⟨bytes, rest, ha, hd⟩
  · obtain hs | ⟨bytes, rfl, -⟩ := he.armed_or_starts hon
    · exact .inl hs
    · exact absurd ho (ownNextEvent_ne_hostOp s bytes)
  · exact .inl hon

/-- Settles O56: `start_processing()` has one encoding (O2). -/
theorem onlyStartProcessingLeavesIdle : Obligations.OnlyStartProcessingLeavesIdle := by
  intro s t h hoff hon
  obtain hs | ⟨bytes, rest, ha, hd⟩ := step_armed_or_starts h hon
  · rw [hoff] at hs
    cases hs
  · obtain ⟨rfl, -, -⟩ := encodeOfDecodedHostOperation bytes .startProcessing hd
    exact ⟨rest, ha⟩

end Sys2Proof.Machine
end

section
/-! The core's own next event (R300, R313, R320, R369 to R371; log 3, log 9): when the core takes it, which one it is,
and that no event writes the agenda, so that taking one of its own leaves the agenda as it is. -/

namespace Sys2Proof.Machine

/-! ### No event writes the agenda -/

/-- `StepEnter` of a motion block, whether it fetches the block or finds it current (R224, R226). -/
theorem motionEnter_agenda (k : MotionKind) (b : MotionBlock) (s : State) : (motionEnter k b s).agenda = s.agenda := by
  cases hc : s.currentBlock with
  | none => rw [motionEnter_of_fetch hc, bresenhamStep_eq, motionBlockInit_eq]; rfl
  | some blk => rw [motionEnter_of_current (by rw [hc]; rfl), bresenhamStep_eq]

/-- A block that answers a next state, motion or assist (R225, R230). -/
theorem exec_block_agenda {blk : Block} {s t : State} (h : exec blk.toInstr s = .next t) : t.agenda = s.agenda := by
  obtain ⟨k, b, -, -, -, ⟨-, rfl⟩ | ⟨-, -, rfl⟩⟩ | ⟨v, rfl⟩ | ⟨v, rfl⟩ | ⟨v, rfl⟩ := exec_block_next h
  · exact motionEnter_agenda k b s
  · rw [motionExit_frame]
  · rfl
  · rfl
  · rfl

/-- Steps 6 to 8: whichever block is run, or the underrun (R222, R223, R225). -/
theorem dispatchBlock_agenda {s t : State} (h : dispatchBlock s = .next t) : t.agenda = s.agenda := by
  obtain ⟨blk, -, he⟩ | ⟨-, -, rfl⟩ | ⟨record, rest, blk, -, -, -, -, he⟩ := dispatchBlock_next h
  · exact exec_block_agenda he
  · rfl
  · exact exec_block_agenda he

/-- An invocation of the step timer, on each of its paths (R219, R220, R229). -/
theorem stepEnter_agenda {s t : State} (h : stepEnter s = .next t) : t.agenda = s.agenda := by
  obtain ⟨-, rfl⟩ | ⟨-, kind, -, rfl⟩ | ⟨-, -, hd⟩ := stepEnter_next h
  · rfl
  · rw [limitReturn_frame, (interlockCut_frame s).1]
  · have hkept := dispatchBlock_agenda hd
    rw [preamble_frame] at hkept
    exact hkept

/-- One iteration of the homing loop (R259). -/
theorem homingIteration_agenda (l : Homing) (s : State) : (homingIteration l s).agenda = s.agenda := by
  obtain ⟨-, e⟩ | ⟨-, -, e⟩ | ⟨-, -, e⟩ := homingIteration_cases l s
  · rw [e]
  · rw [e, startPass_eq]
  · rw [e]

/-- Every host operation (R91). -/
theorem HostEffect.agenda {s t : State} {i : Instr} (h : HostEffect s i t) : t.agenda = s.agenda := by
  cases h with
  | init _ =>
    rw [initialise_eq, initOutputs_eq, setStepRate_eq]
    rfl
  | requestStop kind => rw [(requestStop_frame kind s).1]
  | _ => rfl

/-- Every event (R300). -/
theorem EventEffect.agenda {s t : State} {e : Event} (h : EventEffect s t e) : t.agenda = s.agenda := by
  cases h with
  | invocation _ _ _ ht => exact stepEnter_agenda (s := stampFire s) ht
  | stepExit k b _ _ _ _ _ ht => rw [ht, motionExit_frame]
  | homingIter l _ ht => exact ht ▸ homingIteration_agenda l _
  | hostOp _ _ _ _ _ ht => exact ht.agenda
  | droppedTick _ _ _ ht => exact ht ▸ rfl
  | pulseResetFire _ ht => exact ht ▸ rfl
  | beamResetFire _ ht => exact ht ▸ rfl
  | plannerPush _ _ ht => exact ht ▸ rfl
  | rasterPush _ ht => exact ht ▸ rfl
  | senseChange _ ht => exact ht ▸ rfl
  | clockAdvance _ ht => exact ht ▸ rfl

/-! ### When the core takes its own next event -/

/-- A core is not ready for a host operation while a step event is under way or a `homing_cycle` runs (R300). -/
theorem hostReady_eq_false_iff (s : State) : hostReady s = false ↔ s.busy = true ∨ s.homing ≠ none := by
  rw [← Bool.not_eq_true, hostReady_iff, not_and_or, Bool.not_eq_false]

/-- With nothing ordered, or while a host operation waits, the core takes its own next event (log 3). -/
theorem step_eq_runOwnEvent {s : State} (hi : s.initialised = true) (h : s.agenda = [] ∨ HostOpWaits s) :
    step s = runOwnEvent s := by
  unfold step nextEvent
  rw [if_pos hi]
  obtain ha | ⟨bytes, rest, ha, hbusy⟩ := h
  · rw [ha]
  · have hwaits : mustWait (.hostOp bytes) s = true := by
      rw [mustWait, (hostReady_eq_false_iff s).2 hbusy]
      rfl
    rw [ha]
    exact if_pos hwaits

theorem runOwnEvent_of_some {s : State} {e : Event} (h : ownNextEvent s = some e) : runOwnEvent s = perform e s := by
  simp only [runOwnEvent, h]

theorem runOwnEvent_of_none {s : State} (h : ownNextEvent s = none) : runOwnEvent s = .next s := by
  simp only [runOwnEvent, h]

/-- Whatever the core does by itself leaves the agenda. -/
theorem runOwnEvent_agenda {s t : State} (h : runOwnEvent s = .next t) : t.agenda = s.agenda := by
  cases ho : ownNextEvent s with
  | none =>
    rw [runOwnEvent_of_none ho] at h
    cases h
    rfl
  | some e =>
    rw [runOwnEvent_of_some ho] at h
    exact (perform_next h).agenda

/-! ### Which event it is -/

/-- A step event is under way exactly if a motion block is current while `busy` is set (R215). -/
theorem stepExitEnabled_iff (s : State) : stepExitEnabled s = true ↔ s.busy = true ∧ motionCurrent s = true :=
  Bool.and_eq_true_iff

/-- The candidates marked enabled are the timer events and homing iterations that R300 enables. -/
theorem mem_timerCandidates_iff (s : State) (e : Event) : (true, e) ∈ timerCandidates s ↔ TimerEventEnabled s e := by
  have hfire : true = stepTimerEnabled s ↔ s.processingFlag = true ∧ s.homing = none := by
    rw [eq_comm, stepTimerEnabled_iff]
  have hhoming : true = s.homing.isSome ↔ s.homing ≠ none := by rw [eq_comm, Option.isSome_iff_ne_none]
  simp only [timerCandidates, TimerEventEnabled, List.mem_cons, List.not_mem_nil, or_false, Prod.mk.injEq, hfire,
    hhoming, @eq_comm _ true]
  simp only [and_comm]

/-- The rest of a step event under way comes first (R373). -/
theorem ownNextEvent_of_stepExit {s : State} (hb : s.busy = true) (hm : motionCurrent s = true) :
    ownNextEvent s = some .stepExit := if_pos ((stepExitEnabled_iff s).2 ⟨hb, hm⟩)

/-- With no step event under way the earliest due candidate is next (R313). -/
theorem ownNextEvent_of_no_stepExit {s : State} (h : s.busy = false ∨ motionCurrent s = false) :
    ownNextEvent s = earliest s (timerCandidates s) := by
  refine if_neg fun hexit => ?_
  obtain ⟨hb, hm⟩ := (stepExitEnabled_iff s).1 hexit
  obtain hb' | hm' := h
  · rw [hb] at hb'
    cases hb'
  · rw [hm] at hm'
    cases hm'

/-- Whenever a timer event is enabled the core takes one, and none that is enabled is due before it (R313). -/
theorem ownNextEvent_earliest {s : State} {f : Event} (h : s.busy = false ∨ motionCurrent s = false)
    (hf : TimerEventEnabled s f) :
    ∃ e, ownNextEvent s = some e ∧ TimerEventEnabled s e ∧ dueTime e s ≤ dueTime f s := by
  obtain ⟨e, he, hdue⟩ := earliest_le ((mem_timerCandidates_iff s f).2 hf)
  exact ⟨e, (ownNextEvent_of_no_stepExit h).trans he, (mem_timerCandidates_iff s e).1 (earliest_mem he), hdue⟩

/-- An idle core with nothing pending has no event of its own (R320). -/
theorem ownNextEvent_of_idle {s : State} (hb : s.busy = false) (hp : s.processingFlag = false)
    (hpulse : s.pulseArmed = false) (hbeam : s.beamArmed = false) (hh : s.homing = none) : ownNextEvent s = none := by
  rw [ownNextEvent_of_no_stepExit (.inl hb)]
  simp [timerCandidates, earliest, stepTimerEnabled, hp, hpulse, hbeam, hh]

/-- Settles O10: the core runs its own event in these states, and that event is the one `earliest` finds. -/
theorem coreTakesTheEarliestDueEvent : Obligations.CoreTakesTheEarliestDueEvent := by
  refine ⟨?idle, ?own, fun _ hb hm => ownNextEvent_of_stepExit hb hm, fun _ _ h hf => ownNextEvent_earliest h hf, ?due⟩
  case idle =>
    intro s hi ha hb hp hpulse hbeam hh
    rw [step_eq_runOwnEvent hi (.inl ha)]
    exact runOwnEvent_of_none (ownNextEvent_of_idle hb hp hpulse hbeam hh)
  case own =>
    intro s hi hagenda
    rw [step_eq_runOwnEvent hi hagenda]
    exact ⟨fun _ => runOwnEvent_of_some, runOwnEvent_of_none, fun _ => runOwnEvent_agenda⟩
  case due =>
    intro s
    exact ⟨rfl, rfl, rfl, fun h hh => by simp only [dueTime, hh]⟩

end Sys2Proof.Machine
end

section
/-! Events that cannot occur (R300, R343): a disabled event is refused as such, a step timer at ceiling 0 by a name of
its own (R136), a host operation by `exec` while the core is not ready, and everything but `init()` before the first
one. -/

namespace Sys2Proof.Machine

/-! ### Disabled events -/

theorem whenEnabled_of_disabled {enabled : Bool} (h : enabled = false) (o : Host.Outcome State Fault Refusal) :
    whenEnabled enabled o = .refused .eventNotEnabled := if_neg (Bool.eq_false_iff.1 h)

/-- A fire of a step timer that is disarmed or stands aside for a homing cannot occur. -/
theorem perform_stepTimerFire_of_disabled {s : State} (h : s.processingFlag = false ∨ s.homing ≠ none) :
    perform .stepTimerFire s = .refused .eventNotEnabled := by
  refine whenEnabled_of_disabled (Bool.eq_false_iff.2 fun hen => ?_) _
  obtain ⟨hp, hh⟩ := (stepTimerEnabled_iff s).1 hen
  obtain hoff | hhoming := h
  · rw [hp] at hoff
    cases hoff
  · exact hhoming hh

/-- An enabled fire of a step timer at ceiling 0 is not gone on from (R136, U3; log 8). -/
theorem perform_stepTimerFire_of_zero {s : State} (hp : s.processingFlag = true) (hh : s.homing = none)
    (hc : s.stepCeiling = 0) : perform .stepTimerFire s = .refused .zeroTimerPeriod :=
  (if_pos ((stepTimerEnabled_iff s).2 ⟨hp, hh⟩)).trans (if_pos hc)

/-- Without `busy` there is no `StepExit`. -/
theorem perform_stepExit_of_disabled {s : State} (h : s.busy = false) :
    perform .stepExit s = .refused .eventNotEnabled := by
  refine whenEnabled_of_disabled (Bool.eq_false_iff.2 fun hen => ?_) _
  rw [((stepExitEnabled_iff s).1 hen).1] at h
  cases h

/-- Without a homing there is no iteration of one. -/
theorem perform_homingIter_of_none {s : State} (h : s.homing = none) :
    perform .homingIter s = .refused .eventNotEnabled := by
  simp only [perform, homingIter, h]

/-- Settles O19: none of these events waits, and performing each is refused. -/
theorem disabledEventsAreRefused : Obligations.DisabledEventsAreRefused := by
  intro s rest hi
  refine ⟨fun ha h => ?_, fun ha hp hh hc => ?_, fun ha hb => ?_, fun ha hh => ?_⟩
  · exact (step_of_agenda hi ha rfl).trans (perform_stepTimerFire_of_disabled h)
  · exact (step_of_agenda hi ha rfl).trans (perform_stepTimerFire_of_zero hp hh hc)
  · exact (step_of_agenda hi ha rfl).trans (perform_stepExit_of_disabled hb)
  · exact (step_of_agenda hi ha rfl).trans (perform_homingIter_of_none hh)

/-! ### Host operations of a core that is not ready -/

theorem hostOperation_of_not_ready (f : State → State) {s : State} (h : hostReady s = false) :
    hostOperation f s = .refused .hostOpNotEnabled := if_neg (Bool.eq_false_iff.1 h)

/-- Settles O20, one host operation at a time: each tests the enabling condition, `set_position` after its operands and
`homing_cycle` also where it asks for a disarmed timer. -/
theorem hostOperationsNeedAReadyCore : Obligations.HostOperationsNeedAReadyCore := by
  intro i s hspace hencodable hbusy
  have hready : hostReady s = false := (hostReady_eq_false_iff s).2 hbusy
  cases i with
  | line _ | rasterLine _ | airAssistEnable | airAssistDisable | aux1Enable | aux1Disable | aux2Enable
  | aux2Disable => cases hspace
  | init => exact if_neg (Bool.eq_false_iff.1 hready)
  | setPosition x y z => exact (if_pos hencodable).trans (hostOperation_of_not_ready _ hready)
  | homingCycle =>
    have hguard : ¬(s.processingFlag && hostReady s) = true := by simp [hready]
    exact (if_neg hguard).trans (hostOperation_of_not_ready _ hready)
  | _ => exact hostOperation_of_not_ready _ hready

end Sys2Proof.Machine
end

section
/-! `init()` (R340 to R343): what it writes, where it is refused (R136), and that nothing else has a meaning before the
first one. -/

namespace Sys2Proof.Machine

/-! ### `init()` on a ready core -/

/-- `init()` leaves the step timer a period exactly if the minimum rate has one (R340, R136). -/
theorem initialise_ceiling_ne_zero (s : State) :
    (initialise s).stepCeiling ≠ 0 ↔ HasPeriod s.cfg s.cfg.minimumStepsPerMinute :=
  setStepRate_ceiling_ne_zero s.cfg.minimumStepsPerMinute s

section
variable {s : State}

theorem exec_init_of_ready (hb : s.busy = false) (hh : s.homing = none) : exec .init s = goOn (initialise s) :=
  if_pos ((hostReady_iff s).2 ⟨hb, hh⟩)

theorem exec_init_of_period (hb : s.busy = false) (hh : s.homing = none)
    (hp : HasPeriod s.cfg s.cfg.minimumStepsPerMinute) : exec .init s = .next (initialise s) :=
  (exec_init_of_ready hb hh).trans (goOn_of_period ((initialise_ceiling_ne_zero s).2 hp))

theorem exec_init_of_no_period (hb : s.busy = false) (hh : s.homing = none)
    (hp : ¬HasPeriod s.cfg s.cfg.minimumStepsPerMinute) : exec .init s = .refused .zeroTimerPeriod :=
  (exec_init_of_ready hb hh).trans (goOn_of_zero (not_not.1 (mt (initialise_ceiling_ne_zero s).1 hp)))

end

/-- The minimum rate is its own lower bound in `rate_to_cycles` (R132). -/
theorem rateToCycles_minimum (c : Config) :
    rateToCycles c c.minimumStepsPerMinute = 60 * c.fCpu / c.minimumStepsPerMinute := by
  rw [rateToCycles, max_self]

/-- Settles O50: `init()` as one update, its three parts put together (R340, R341). -/
theorem initWritesTheResetTable : Obligations.InitWritesTheResetTable := by
  intro s hb hh
  refine ⟨exec_init_of_no_period hb hh, fun hp => ?_⟩
  rw [exec_init_of_period hb hh hp, initialise_eq, initOutputs_eq, setStepRate_eq, rateToCycles_minimum]
  simp only [initRegisters, List.append_assoc]
  rfl

/-! ### Before the first `init()` -/

/-- `init()` has one encoding (O2), so any other event is refused (R343; log 12). -/
theorem beforeInit_of_not_init {s : State} (h : ∀ rest, s.agenda ≠ .hostOp [0x00] :: rest) :
    beforeInit s = .refused .beforeInit := by
  unfold beforeInit
  split
  · rename_i bytes rest ha
    split
    · rename_i hd
      obtain ⟨rfl, -, -⟩ := encodeOfDecodedHostOperation bytes .init hd
      exact absurd ha (h rest)
    · rfl
  · rfl

/-- An `init()` has its meaning, on a core that counts as ready (R343). -/
theorem beforeInit_of_init {s : State} {rest : List Event} (h : s.agenda = .hostOp [0x00] :: rest) :
    beforeInit s = exec .init { s with agenda := rest, busy := false, homing := none } := by
  unfold beforeInit
  rw [h]
  rfl

theorem step_of_not_initialised {s : State} (h : s.initialised = false) : step s = beforeInit s :=
  if_neg (Bool.eq_false_iff.1 h)

/-- Settles O9: the step is `beforeInit`, and an `init()` there is one on a ready core. -/
theorem onlyInitBeforeTheFirstInit : Obligations.OnlyInitBeforeTheFirstInit := by
  intro s hi
  rw [step_of_not_initialised hi]
  refine ⟨beforeInit_of_not_init, fun rest ha hp => ?_, fun rest ha hp => ?_⟩
  · exact ⟨_, (beforeInit_of_init ha).trans (exec_init_of_period rfl rfl hp), initialise_idle _⟩
  · exact (beforeInit_of_init ha).trans (exec_init_of_no_period rfl rfl hp)

/-! ### The reset state -/

/-- Settles O51: the timer is 800000 cycles over prescaler 64, and every other register is written out in the table. -/
theorem resetStateOfTheExampleParameters : Obligations.ResetStateOfTheExampleParameters := by
  have hcycles : rateToCycles Config.exampleValues Config.exampleValues.minimumStepsPerMinute = 800000 := by decide
  have hselect : selectPrescaler 800000 = (.div64, 12500) := by decide
  have hprescaler : State.reset.stepPrescaler = .div64 := by
    rw [State.reset, State.initial, hcycles, hselect]
  have hceiling : State.reset.stepCeiling = 12500 := by
    rw [State.reset, State.initial, hcycles, hselect]
  have hperiod : State.reset.cyclesPerStepEvent = 800000 := by
    rw [State.reset, State.initial, hcycles, achievedPeriod, hselect]
    rfl
  exact ⟨hprescaler, hceiling, hperiod, rfl, rfl, rfl, rfl, rfl, rfl, rfl, rfl, by decide, by decide, rfl, rfl, rfl,
    rfl, rfl⟩

end Sys2Proof.Machine
end
